-- ==== Sys2Proof/Word.lean ====
section
/-! DEFINITION. The word types of the block and its wire (spec/00_scope.md R6, R8). -/

namespace Sys2Proof

/-- A byte, an unsigned 8-bit value (R8). -/
abbrev Byte := BitVec 8

/-- A host offset, length or operand word: 32 bits unsigned (R6, R21). -/
abbrev Word := BitVec 32

/-- The address field of a wire frame: 24 bits (R6, R51). -/
abbrev Addr := BitVec 24

end Sys2Proof
end

