-- ==== Sys2Proof/Config.lean ====
section
/-! DEFINITION. What an implementation fixes (spec/00_scope.md R6, R7) and the free values: the geometry, the build
parameters, and the choices the bus environment makes at one exchange. -/

namespace Sys2Proof

/-- PAGE_SIZE (R6). -/
abbrev Config.pageSize : Nat := 256
/-- N_PAGES (R6). -/
abbrev Config.nPages : Nat := 16384
/-- SECTOR_SIZE (R6). -/
abbrev Config.sectorSize : Nat := 4096
/-- N_SECTORS (R6). -/
abbrev Config.nSectors : Nat := 1024
/-- BLOCK_32K_SIZE (R6). -/
abbrev Config.block32KSize : Nat := 32768
/-- N_BLOCKS_32K (R6). -/
abbrev Config.nBlocks32K : Nat := 128
/-- BLOCK_64K_SIZE (R6). -/
abbrev Config.block64KSize : Nat := 65536
/-- N_BLOCKS_64K (R6). -/
abbrev Config.nBlocks64K : Nat := 64
/-- CAPACITY, the number of bytes of the flash array (R6). -/
abbrev Config.capacity : Nat := 4194304
/-- READBACK_CHUNK (R6, R146). -/
abbrev Config.readbackChunk : Nat := 64
/-- ID_FRAME_LEN (R6, R200). -/
abbrev Config.idFrameLen : Nat := 13
/-- STATUS_DUMMY (R6, decision D6). -/
abbrev Config.statusDummy : Byte := 0x00
/-- ID_PAD (R6, decision D7). -/
abbrev Config.idPad : Byte := 0x00
/-- The value of an erased byte, all ones (R13, R75). -/
abbrev Config.erasedByte : Byte := 0xFF

/-- The poll kinds, which select a poll budget (R6, R145). -/
inductive PollKind where
  | pp | se | be32 | be64 | ce | idle
deriving DecidableEq, Repr

/-- POLL_LIMIT, one budget for each poll kind; none means unbounded (R6, decision D10). -/
structure PollLimits where
  pp   : Option Nat
  se   : Option Nat
  be32 : Option Nat
  be64 : Option Nat
  ce   : Option Nat
  idle : Option Nat
deriving DecidableEq, Repr

/-- POLL_LIMIT(k) (R6). -/
def PollLimits.limit (p : PollLimits) : PollKind → Option Nat
  | .pp => p.pp
  | .se => p.se
  | .be32 => p.be32
  | .be64 => p.be64
  | .ce => p.ce
  | .idle => p.idle

/-- The build parameters a block is made with (R6, R31); no request reads or writes them. -/
structure Params where
  /-- VERIFY_WE (decision D8). -/
  verifyWe       : Bool
  /-- READBACK_VERIFY (decision D9). -/
  readbackVerify : Bool
  /-- POLL_LIMIT (decision D10). -/
  pollLimit      : PollLimits
deriving DecidableEq, Repr

/-- CFG0, the default configuration of spec/95_test_vectors.md (log entry 1, DESIGN CHOICE: the spec leaves the
parameters to the build). -/
def Params.cfg0 : Params :=
  ⟨true, false, ⟨none, none, none, none, none, none⟩⟩

/-- R6: every budget is none or some L with L at least 1. -/
def Params.wf (p : Params) : Bool :=
  [p.pollLimit.pp, p.pollLimit.se, p.pollLimit.be32, p.pollLimit.be64, p.pollLimit.ce, p.pollLimit.idle].all
    (fun l => l != some 0)

/-- The opaque payload of a transport error (R6, decision D26). Nothing reads what is in it (log entry 11). -/
structure Payload where
  tag : Nat
deriving DecidableEq, Repr, Inhabited

/-- An operation the chip has accepted and not yet completed (R70, R74, R75). -/
inductive ChipOp where
  /-- programming the bytes d from address x on (R74) -/
  | program (x : Nat) (d : List Byte)
  /-- erasing size bytes from base on (R75) -/
  | erase (base size : Nat)
deriving DecidableEq, Repr, Inhabited

/-- Everything the spec leaves to the bus environment at ONE exchange (R76, R79 to R81; 93_implementation_defined.md
I1, I2, I5, I7 to I11, I14). Each field is read only where the spec calls the value a draw. -/
structure BusChoice where
  /-- the transport answers Err with this payload (I14); none: it answers Ok -/
  err          : Option Payload
  /-- the operation in flight completes before this exchange (I5) -/
  done         : Bool
  /-- WEL after that completion, where no rule clears it (I8, R259, R30; log entry 12) -/
  latchKept    : Bool
  /-- a powered-down chip ignores this exchange (I11) -/
  ignored      : Bool
  /-- the received bytes that may be any value (I1, I2, I7, I11) -/
  bytes        : List Byte
  /-- BUSY where it may be any value (I8 to I11) -/
  busy         : Bool
  /-- WEL where it may be any value (I8 to I11) -/
  wel          : Bool
  /-- the array where it may be any value (I9): the bytes that are not 0xFF -/
  cells        : List (Nat × Byte)
  /-- the operation in flight where it may be any (I9) -/
  inflight     : Option ChipOp
  /-- the power-down state where it may be any (I9) -/
  poweredDown  : Bool
  /-- the reset-enable state, for which the spec gives no rule (R79) -/
  resetEnabled : Bool
deriving DecidableEq, Repr, Inhabited

/-- The environment's choice number n, when State.script supplies none: a free value with no body, so that no proof can
see what it is (log entry 10). -/
opaque Config.freeChoice : Nat → BusChoice

/-- The chip's unique identifier, eight bytes fixed per chip (R70, R78): a free value with no body (log entry 8). -/
opaque Config.uid : Vector Byte 8

end Sys2Proof
end

