-- ==== Sys2Proof/Syntax.lean ====
section
/-! DEFINITION. The instructions of spec/opcode_table.json, one constructor per row (spec/00_scope.md R3), and the two
encoded forms they have: the wire exchange (R23, R90) and the serialised host request (R21, R102). -/

namespace Sys2Proof

/-- The two instruction sets of R3 in one type: the thirteen wire commands of R91, which run as an exchange on the bus
port, and the sixteen host op codes of R100. A host request whose operands R101 calls ignored still carries them: the
block latches them (R26). -/
inductive Instr where
  /-- PageProgram 0x02 at address x with data d (R121) -/
  | pageProgram (x : Addr) (d : List Byte)
  /-- ReadData 0x03 at address x, receiving n bytes (R122) -/
  | readData (x : Addr) (n : Nat)
  /-- ReadStatusRegister1 0x05 (R123) -/
  | readStatusRegister1
  /-- WriteEnable 0x06 (R124) -/
  | writeEnable
  /-- SectorErase 0x20 (R125) -/
  | sectorErase (x : Addr)
  /-- BlockErase32K 0x52 (R126) -/
  | blockErase32K (x : Addr)
  /-- UniqueId 0x4B (R127) -/
  | uniqueId
  /-- BlockErase64K 0xD8 (R128) -/
  | blockErase64K (x : Addr)
  /-- ChipErase 0xC7 (R129) -/
  | chipErase
  /-- EnableReset 0x66 (R130) -/
  | enableReset
  /-- Reset 0x99 (R131) -/
  | reset
  /-- PowerDown 0xB9 (R132) -/
  | powerDown
  /-- ReleasePowerDown 0xAB (R133) -/
  | releasePowerDown
  /-- READ: a is the offset, n (b) the length (R160) -/
  | hostRead (a n : Word)
  /-- WRITE: a is the offset, data the bytes; b is their number (R161) -/
  | hostWrite (a : Word) (data : List Byte)
  /-- ERASE: byte bounds, the second exclusive (R185) -/
  | hostErase (first last : Word)
  /-- DEVICE_ID (R200) -/
  | hostDeviceId (a b : Word)
  /-- RESET (R201) -/
  | hostReset (a b : Word)
  /-- CAPACITY (R202) -/
  | hostCapacity (a b : Word)
  /-- ERASE_SECTOR: a is the sector index (R181) -/
  | hostEraseSector (a b : Word)
  /-- ERASE_BLOCK32K: a is the 32K-block index (R182) -/
  | hostEraseBlock32K (a b : Word)
  /-- ERASE_BLOCK64K: a is the 64K-block index (R183) -/
  | hostEraseBlock64K (a b : Word)
  /-- ERASE_CHIP (R184) -/
  | hostEraseChip (a b : Word)
  /-- POWER_DOWN (R203) -/
  | hostPowerDown (a b : Word)
  /-- RELEASE_POWER_DOWN (R204) -/
  | hostReleasePowerDown (a b : Word)
  /-- WAIT_IDLE (R205) -/
  | hostWaitIdle (a b : Word)
  /-- the unassigned op 0x0 (R206) -/
  | hostUnassigned0 (a b : Word)
  /-- the unassigned op 0xE (R206) -/
  | hostUnassignedE (a b : Word)
  /-- the unassigned op 0xF (R206) -/
  | hostUnassignedF (a b : Word)
deriving DecidableEq, Repr

/-- The closed set of the thirteen wire opcodes (R91, R134). -/
inductive Opcode where
  | pageProgram | readData | readStatusRegister1 | writeEnable | sectorErase | blockErase32K | uniqueId
  | blockErase64K | chipErase | enableReset | reset | powerDown | releasePowerDown
deriving DecidableEq, Repr

/-- The sixteen values of the 4-bit op field (R100), which are also the values of the block's op register (R26). -/
inductive HostOp where
  | unassigned0 | read | write | erase | deviceId | reset | capacity | eraseSector | eraseBlock32K | eraseBlock64K
  | eraseChip | powerDown | releasePowerDown | waitIdle | unassignedE | unassignedF
deriving DecidableEq, Repr

/-- The exchange shapes (R23): W write-only, WR write-then-read, X transfer in place. -/
inductive Shape where
  | w | wr | x
deriving DecidableEq, Repr

/-- An exchange on the bus port: its shape, the bytes sent and the receive count (R23). -/
structure Exchange where
  shape : Shape
  tx    : List Byte
  n     : Nat
deriving DecidableEq, Repr

/-- A host request as it is written in words: W0 (the op in bits 3..0), W1 = a, W2 = b and the data bytes (R102). -/
structure HostRequest where
  w0   : Word
  w1   : Word
  w2   : Word
  data : List Byte
deriving DecidableEq, Repr

/-- The two encoded interfaces of spec/30_encoding.md. -/
inductive Encoded where
  | exchange (e : Exchange)
  | request (r : HostRequest)
deriving DecidableEq, Repr

/-- Why a decoder rejects what it is given, by name. -/
inductive DecodeError where
  /-- no byte was sent -/
  | emptyFrame
  /-- byte 0 is none of the thirteen opcodes (R95, R134) -/
  | unknownOpcode (b : Byte)
  /-- the exchange has not the shape, or not the receive count, that R91 gives its opcode -/
  | wrongShape (o : Opcode)
  /-- the bytes after the opcode are not those R90 and R94 give it -/
  | wrongFrame (o : Opcode)
  /-- W0 has one of the bits 31..4 set (R102) -/
  | reservedBits (w0 : Word)
  /-- the number of data bytes is not the one R21 gives the op -/
  | wrongDataLength (op : HostOp)
deriving DecidableEq, Repr

end Sys2Proof
end

