-- ==== Sys2Proof/WellFormed.lean ====
section
/-! DEFINITION. Which instructions are well-formed: the operand ranges of spec/40_wire_commands.md R121 to R133 and the
request shape of spec/10_state.md R21. -/

namespace Sys2Proof

/-- The operand ranges the spec gives each instruction. For a wire command these are the operands the block can send
(R121, R122, R125, R126, R128); a host request may have any operands, but WRITE's data has at most 2^32 - 1 bytes
(R21). -/
def Instr.wf : Instr → Bool
  | .pageProgram x d =>
      decide (x.toNat % Config.pageSize + d.length ≤ Config.pageSize) && decide (x.toNat + d.length ≤ Config.capacity)
  | .readData x n => decide (x.toNat + n ≤ Config.capacity)
  | .readStatusRegister1 => true
  | .writeEnable => true
  | .sectorErase x => decide (x.toNat % Config.sectorSize = 0) && decide (x.toNat < Config.capacity)
  | .blockErase32K x => decide (x.toNat % Config.block32KSize = 0) && decide (x.toNat < Config.capacity)
  | .uniqueId => true
  | .blockErase64K x => decide (x.toNat % Config.block64KSize = 0) && decide (x.toNat < Config.capacity)
  | .chipErase => true
  | .enableReset => true
  | .reset => true
  | .powerDown => true
  | .releasePowerDown => true
  | .hostRead _ _ => true
  | .hostWrite _ data => decide (data.length < 2 ^ 32)
  | .hostErase _ _ => true
  | .hostDeviceId _ _ => true
  | .hostReset _ _ => true
  | .hostCapacity _ _ => true
  | .hostEraseSector _ _ => true
  | .hostEraseBlock32K _ _ => true
  | .hostEraseBlock64K _ _ => true
  | .hostEraseChip _ _ => true
  | .hostPowerDown _ _ => true
  | .hostReleasePowerDown _ _ => true
  | .hostWaitIdle _ _ => true
  | .hostUnassigned0 _ _ => true
  | .hostUnassignedE _ _ => true
  | .hostUnassignedF _ _ => true

/-- A well-formed instruction. -/
abbrev Instr.WellFormed (i : Instr) : Prop := i.wf = true

end Sys2Proof
end

