-- ==== Sys2Proof/Decode.lean ====
section
/-! DEFINITION. The decoders of the two encoded interfaces (spec/30_encoding.md), total and rejecting by name, then the
encoder, then the host's decodeTableWord. -/

namespace Sys2Proof

/-! ### Opcode map (R91, R134) -/

/-- The opcode byte (R91). -/
def Opcode.byte : Opcode → Byte
  | .pageProgram => 0x02
  | .readData => 0x03
  | .readStatusRegister1 => 0x05
  | .writeEnable => 0x06
  | .sectorErase => 0x20
  | .blockErase32K => 0x52
  | .uniqueId => 0x4B
  | .blockErase64K => 0xD8
  | .chipErase => 0xC7
  | .enableReset => 0x66
  | .reset => 0x99
  | .powerDown => 0xB9
  | .releasePowerDown => 0xAB

/-- The thirteen opcodes, in the order of R91. -/
def Opcode.all : List Opcode :=
  [.pageProgram, .readData, .readStatusRegister1, .writeEnable, .sectorErase, .blockErase32K, .uniqueId,
   .blockErase64K, .chipErase, .enableReset, .reset, .powerDown, .releasePowerDown]

/-- The partial inverse of the opcode map: 243 byte values have no opcode (R134). -/
def Opcode.ofByte (b : Byte) : Option Opcode :=
  Opcode.all.find? (fun o => decide (o.byte = b))

/-- Format FA, with a 3-byte address, or F0, without (R90, R91). -/
def Opcode.addressed : Opcode → Bool
  | .pageProgram => true
  | .readData => true
  | .readStatusRegister1 => false
  | .writeEnable => false
  | .sectorErase => true
  | .blockErase32K => true
  | .uniqueId => false
  | .blockErase64K => true
  | .chipErase => false
  | .enableReset => false
  | .reset => false
  | .powerDown => false
  | .releasePowerDown => false

/-- The exchange shape of the opcode (R91). -/
def Opcode.shape : Opcode → Shape
  | .pageProgram => .w
  | .readData => .wr
  | .readStatusRegister1 => .x
  | .writeEnable => .w
  | .sectorErase => .w
  | .blockErase32K => .w
  | .uniqueId => .x
  | .blockErase64K => .w
  | .chipErase => .w
  | .enableReset => .w
  | .reset => .w
  | .powerDown => .w
  | .releasePowerDown => .w

/-- The bytes an F0 command sends after its opcode: the status dummy, the identifier's padding, or nothing (R94). -/
def Opcode.padding : Opcode → List Byte
  | .readStatusRegister1 => [Config.statusDummy]
  | .uniqueId => List.replicate 12 Config.idPad
  | .pageProgram => []
  | .readData => []
  | .writeEnable => []
  | .sectorErase => []
  | .blockErase32K => []
  | .blockErase64K => []
  | .chipErase => []
  | .enableReset => []
  | .reset => []
  | .powerDown => []
  | .releasePowerDown => []

/-! ### Address field and frames (R51, R90, R93, R120) -/

/-- The address field of an offset: bits 23..0, the bits above are not sent (R51, R93). -/
def wireAddr (offset : Nat) : Addr := BitVec.ofNat 24 offset

/-- addr24: the address most-significant byte first (R51, R54). -/
def addrBytes (x : Addr) : List Byte :=
  [x.extractLsb' 16 8, x.extractLsb' 8 8, x.extractLsb' 0 8]

/-- The address a decoder reads from bytes 1 to 3 of an FA frame (R92). -/
def joinAddr (hi mid lo : Byte) : Addr := BitVec.ofNat 24 (hi.toNat * 65536 + mid.toNat * 256 + lo.toNat)

/-- Frame(opc, x) (R120). -/
def frameAddr (o : Opcode) (x : Addr) : List Byte := o.byte :: addrBytes x

/-! ### The exchange of each wire command (R91, R121 to R133) -/

/-- W Frame(0x02, x) ++ d (R121). -/
def Exchange.pageProgram (x : Addr) (d : List Byte) : Exchange := ⟨.w, frameAddr .pageProgram x ++ d, 0⟩
/-- WR Frame(0x03, x), n (R122). -/
def Exchange.readData (x : Addr) (n : Nat) : Exchange := ⟨.wr, frameAddr .readData x, n⟩
/-- X [0x05, STATUS_DUMMY] (R123). -/
def Exchange.readStatusRegister1 : Exchange := ⟨.x, [Opcode.readStatusRegister1.byte, Config.statusDummy], 2⟩
/-- W [0x06] (R124). -/
def Exchange.writeEnable : Exchange := ⟨.w, [Opcode.writeEnable.byte], 0⟩
/-- W Frame(0x20, x) (R125). -/
def Exchange.sectorErase (x : Addr) : Exchange := ⟨.w, frameAddr .sectorErase x, 0⟩
/-- W Frame(0x52, x) (R126). -/
def Exchange.blockErase32K (x : Addr) : Exchange := ⟨.w, frameAddr .blockErase32K x, 0⟩
/-- X [0x4B] ++ rep(12, ID_PAD) (R127). -/
def Exchange.uniqueId : Exchange := ⟨.x, Opcode.uniqueId.byte :: List.replicate 12 Config.idPad, Config.idFrameLen⟩
/-- W Frame(0xD8, x) (R128). -/
def Exchange.blockErase64K (x : Addr) : Exchange := ⟨.w, frameAddr .blockErase64K x, 0⟩
/-- W [0xC7] (R129). -/
def Exchange.chipErase : Exchange := ⟨.w, [Opcode.chipErase.byte], 0⟩
/-- W [0x66] (R130). -/
def Exchange.enableReset : Exchange := ⟨.w, [Opcode.enableReset.byte], 0⟩
/-- W [0x99] (R131). -/
def Exchange.reset : Exchange := ⟨.w, [Opcode.reset.byte], 0⟩
/-- W [0xB9] (R132). -/
def Exchange.powerDown : Exchange := ⟨.w, [Opcode.powerDown.byte], 0⟩
/-- W [0xAB] (R133). -/
def Exchange.releasePowerDown : Exchange := ⟨.w, [Opcode.releasePowerDown.byte], 0⟩

/-! ### Decoding an exchange (R92) -/

/-- An FA command without data: exactly three address bytes follow the opcode. -/
def decodeAddressed (o : Opcode) (rest : List Byte) (k : Addr → Instr) : Except DecodeError Instr :=
  match rest with
  | [h, m, l] => .ok (k (joinAddr h m l))
  | _ => .error (.wrongFrame o)

/-- An F0 command: exactly the padding of R94 follows the opcode. -/
def decodePlain (o : Opcode) (rest : List Byte) (i : Instr) : Except DecodeError Instr :=
  if rest = o.padding then .ok i else .error (.wrongFrame o)

/-- The command whose opcode is o, from the bytes after the opcode and the receive count (R91, R92). -/
def decodeBody (o : Opcode) (rest : List Byte) (n : Nat) : Except DecodeError Instr :=
  match o with
  | .pageProgram =>
      match rest with
      | h :: m :: l :: d => .ok (.pageProgram (joinAddr h m l) d)
      | _ => .error (.wrongFrame .pageProgram)
  | .readData => decodeAddressed .readData rest (fun x => .readData x n)
  | .readStatusRegister1 => decodePlain .readStatusRegister1 rest .readStatusRegister1
  | .writeEnable => decodePlain .writeEnable rest .writeEnable
  | .sectorErase => decodeAddressed .sectorErase rest .sectorErase
  | .blockErase32K => decodeAddressed .blockErase32K rest .blockErase32K
  | .uniqueId => decodePlain .uniqueId rest .uniqueId
  | .blockErase64K => decodeAddressed .blockErase64K rest .blockErase64K
  | .chipErase => decodePlain .chipErase rest .chipErase
  | .enableReset => decodePlain .enableReset rest .enableReset
  | .reset => decodePlain .reset rest .reset
  | .powerDown => decodePlain .powerDown rest .powerDown
  | .releasePowerDown => decodePlain .releasePowerDown rest .releasePowerDown

/-- The receive count agrees with the shape: 0 for W, any for WR, the number of bytes sent for X (R23). -/
def Exchange.countOk (e : Exchange) : Bool :=
  match e.shape with
  | .w => decide (e.n = 0)
  | .wr => true
  | .x => decide (e.n = e.tx.length)

/-- The wire command of an exchange: the opcode in byte 0 alone selects format and shape (R90, R92). -/
def decodeExchange (e : Exchange) : Except DecodeError Instr :=
  match e.tx with
  | [] => .error .emptyFrame
  | b :: rest =>
    match Opcode.ofByte b with
    | none => .error (.unknownOpcode b)
    | some o =>
      if e.shape = o.shape ∧ e.countOk = true then decodeBody o rest e.n else .error (.wrongShape o)

/-! ### Host op codes and requests (R100 to R103) -/

/-- The op code (R100). -/
def HostOp.code : HostOp → BitVec 4
  | .unassigned0 => 0x0
  | .read => 0x1
  | .write => 0x2
  | .erase => 0x3
  | .deviceId => 0x4
  | .reset => 0x5
  | .capacity => 0x6
  | .eraseSector => 0x7
  | .eraseBlock32K => 0x8
  | .eraseBlock64K => 0x9
  | .eraseChip => 0xA
  | .powerDown => 0xB
  | .releasePowerDown => 0xC
  | .waitIdle => 0xD
  | .unassignedE => 0xE
  | .unassignedF => 0xF

/-- The op of each of the sixteen codes but the last, by its number (R100). -/
def HostOp.ofNumber : Nat → HostOp
  | 0 => .unassigned0
  | 1 => .read
  | 2 => .write
  | 3 => .erase
  | 4 => .deviceId
  | 5 => .reset
  | 6 => .capacity
  | 7 => .eraseSector
  | 8 => .eraseBlock32K
  | 9 => .eraseBlock64K
  | 10 => .eraseChip
  | 11 => .powerDown
  | 12 => .releasePowerDown
  | 13 => .waitIdle
  | 14 => .unassignedE
  | _ => .unassignedF

/-- The op a decoder tells from W0[3:0] (R102). -/
def HostOp.ofCode (c : BitVec 4) : HostOp := HostOp.ofNumber c.toNat

/-- The instruction of an op with its operands. WRITE's data are the request's bytes (R101). -/
def HostOp.instr (op : HostOp) (a b : Word) (data : List Byte) : Instr :=
  match op with
  | .unassigned0 => .hostUnassigned0 a b
  | .read => .hostRead a b
  | .write => .hostWrite a data
  | .erase => .hostErase a b
  | .deviceId => .hostDeviceId a b
  | .reset => .hostReset a b
  | .capacity => .hostCapacity a b
  | .eraseSector => .hostEraseSector a b
  | .eraseBlock32K => .hostEraseBlock32K a b
  | .eraseBlock64K => .hostEraseBlock64K a b
  | .eraseChip => .hostEraseChip a b
  | .powerDown => .hostPowerDown a b
  | .releasePowerDown => .hostReleasePowerDown a b
  | .waitIdle => .hostWaitIdle a b
  | .unassignedE => .hostUnassignedE a b
  | .unassignedF => .hostUnassignedF a b

/-- How many data bytes the request must carry: b for WRITE, none for every other op (R21). -/
def HostOp.dataLength (op : HostOp) (b : Word) : Nat :=
  match op with
  | .write => b.toNat
  | .unassigned0 | .read | .erase | .deviceId | .reset | .capacity | .eraseSector | .eraseBlock32K | .eraseBlock64K
  | .eraseChip | .powerDown | .releasePowerDown | .waitIdle | .unassignedE | .unassignedF => 0

/-- The request of the three words and the data bytes. A W0 with a bit above 3 set, or a wrong number of data bytes, is
not a request (R21, R102). -/
def decodeRequest (r : HostRequest) : Except DecodeError Instr :=
  if r.w0.extractLsb' 4 28 = 0#28 then
    let op := HostOp.ofCode (r.w0.extractLsb' 0 4)
    if r.data.length = op.dataLength r.w2 then .ok (op.instr r.w1 r.w2 r.data) else .error (.wrongDataLength op)
  else .error (.reservedBits r.w0)

/-- The decoder of both interfaces. -/
def decode : Encoded → Except DecodeError Instr
  | .exchange e => decodeExchange e
  | .request r => decodeRequest r

/-! ### Encoding -/

/-- The words of a request with op code op (R102). -/
def HostOp.request (op : HostOp) (a b : Word) (data : List Byte) : HostRequest :=
  ⟨op.code.setWidth 32, a, b, data⟩

/-- The encoding of an instruction: the exchange of a wire command (R91), the words of a host request (R102). -/
def encode : Instr → Encoded
  | .pageProgram x d => .exchange (Exchange.pageProgram x d)
  | .readData x n => .exchange (Exchange.readData x n)
  | .readStatusRegister1 => .exchange Exchange.readStatusRegister1
  | .writeEnable => .exchange Exchange.writeEnable
  | .sectorErase x => .exchange (Exchange.sectorErase x)
  | .blockErase32K x => .exchange (Exchange.blockErase32K x)
  | .uniqueId => .exchange Exchange.uniqueId
  | .blockErase64K x => .exchange (Exchange.blockErase64K x)
  | .chipErase => .exchange Exchange.chipErase
  | .enableReset => .exchange Exchange.enableReset
  | .reset => .exchange Exchange.reset
  | .powerDown => .exchange Exchange.powerDown
  | .releasePowerDown => .exchange Exchange.releasePowerDown
  | .hostRead a n => .request (HostOp.request .read a n [])
  | .hostWrite a data => .request (HostOp.request .write a (BitVec.ofNat 32 data.length) data)
  | .hostErase a b => .request (HostOp.request .erase a b [])
  | .hostDeviceId a b => .request (HostOp.request .deviceId a b [])
  | .hostReset a b => .request (HostOp.request .reset a b [])
  | .hostCapacity a b => .request (HostOp.request .capacity a b [])
  | .hostEraseSector a b => .request (HostOp.request .eraseSector a b [])
  | .hostEraseBlock32K a b => .request (HostOp.request .eraseBlock32K a b [])
  | .hostEraseBlock64K a b => .request (HostOp.request .eraseBlock64K a b [])
  | .hostEraseChip a b => .request (HostOp.request .eraseChip a b [])
  | .hostPowerDown a b => .request (HostOp.request .powerDown a b [])
  | .hostReleasePowerDown a b => .request (HostOp.request .releasePowerDown a b [])
  | .hostWaitIdle a b => .request (HostOp.request .waitIdle a b [])
  | .hostUnassigned0 a b => .request (HostOp.request .unassigned0 a b [])
  | .hostUnassignedE a b => .request (HostOp.request .unassignedE a b [])
  | .hostUnassignedF a b => .request (HostOp.request .unassignedF a b [])

/-! ### The table's words (log entry 24) -/

/-- Byte k of a number, byte 0 the least significant: how spec/opcode_table.json numbers a row's bits. -/
def tableByte (w k : Nat) : Byte := BitVec.ofNat 8 (w / 2 ^ (8 * k))

/-- The wire exchange whose first bytes are w's: an FA frame is the opcode and three address bytes, an F0 frame the
opcode; the rest is what R91 and R94 give the opcode, with no data and nothing received. -/
def tableExchange (w : Nat) : Exchange :=
  match Opcode.ofByte (tableByte w 0) with
  | none => ⟨.w, [tableByte w 0], 0⟩
  | some o =>
    let tx := tableByte w 0 :: ((if o.addressed then [tableByte w 1, tableByte w 2, tableByte w 3] else []) ++ o.padding)
    ⟨o.shape, tx, match o.shape with | .w => 0 | .wr => 0 | .x => tx.length⟩

/-- The request whose words W0, W1, W2 are w's, with no data bytes. -/
def tableRequest (w : Nat) : HostRequest :=
  ⟨BitVec.ofNat 32 w, BitVec.ofNat 32 (w / 2 ^ 32), BitVec.ofNat 32 (w / 2 ^ 64), []⟩

/-- A row of the wire space has its opcode in 8 bits; a row of the host space has W0 in 32 bits. A 32-bit word whose
bits 31..4 are not zero is no request, so it is read as an FA frame when its byte 0 is an address-bearing opcode. -/
def tableIsWire (nbits w : Nat) : Bool :=
  decide (nbits < 32) ||
    (decide (nbits = 32) && decide (16 ≤ w) &&
      (match Opcode.ofByte (tableByte w 0) with
       | some o => o.addressed
       | none => false))

/-- What the table's word w of nbits bits stands for on its interface. -/
def tableEncoded (nbits w : Nat) : Encoded :=
  let v := w % 2 ^ nbits
  if tableIsWire nbits v then .exchange (tableExchange v) else .request (tableRequest v)

/-- The instruction the decoder reads from the table's word. -/
def decodeTableWord (nbits w : Nat) : Option Instr :=
  match decode (tableEncoded nbits w) with
  | .ok i => some i
  | .error _ => none

end Sys2Proof
end

