-- ==== Sys2Proof/Machine/State.lean ====
section
/-! DEFINITION. The state of the machine as plain data (spec/10_state.md, spec/20_memory.md R70), why a step can stop,
and the state after reset. -/

namespace Sys2Proof.Machine

/-- The phase register, the block's program counter: IDLE, CTLFAULT and one value per exchange site (R27). -/
inductive Phase where
  | idle | ctlFault
  | sWe | sWeRs | sPp | sSe | sBe32 | sBe64 | sCe | sPoll | sVfy | sRd | sId | sRstEn | sRst | sPd | sRpd
deriving DecidableEq, Repr

/-- The result codes the block produces (R220); the codes 9 to 15 are never produced. -/
inductive ResultCode where
  | ok | transportError | controlLineError | notAligned | outOfBounds | writeEnableFail | readbackFail | timeout
  | unsupported
deriving DecidableEq, Repr

/-- A request error with what it carries (R220, R227). -/
inductive ReqError where
  /-- R221: the transport's opaque payload -/
  | transportError (p : Payload)
  /-- R222 -/
  | controlLineError
  /-- R223 -/
  | notAligned
  /-- R224 -/
  | outOfBounds
  /-- R225 -/
  | writeEnableFail
  /-- R226 -/
  | readbackFail
  /-- R229 -/
  | timeout
  /-- R230 -/
  | unsupported
deriving DecidableEq, Repr

/-- The response to a host request (R22). -/
structure Response where
  result  : ResultCode
  value   : Word
  rdata   : List Byte
  payload : Option Payload
deriving DecidableEq, Repr

/-- What the block-reset input does at one step: nothing, or a block reset that samples CTL_OK (R25, R250). -/
inductive ResetInput where
  | run
  | reset (ctlOk : Bool)
deriving DecidableEq, Repr

/-- Memory: the bytes of the flash array that are not 0xFF, in rising order of their addresses (R52; log entry 6). -/
abbrev Memory := List Host.Cell

/-- The flash chip (R70): the array, BUSY, WEL, the operation in flight, the power-down and reset-enable states (R79)
and the unique identifier (R78). -/
structure Chip where
  arr          : Memory
  busy         : Bool
  wel          : Bool
  inflight     : Option ChipOp
  poweredDown  : Bool
  resetEnabled : Bool
  uid          : Vector Byte 8
deriving DecidableEq, Repr

/-- Everything the spec gives the machine: the block's registers (R26), its ports (R21 to R25), the chip (R70), the
build parameters (R6), and the inputs from outside. -/
structure State where
  /-- the build parameters (R6, R31); no step changes them -/
  params    : Params
  /-- hold_n (R24) -/
  holdN     : Bool
  /-- wp_n (R24) -/
  wpN       : Bool
  /-- the phase register (R27) -/
  phase     : Phase
  /-- the latched op, 4 bits as sixteen names (R26) -/
  op        : HostOp
  /-- latched operand a (R26) -/
  a         : Word
  /-- latched operand b (R26) -/
  b         : Word
  /-- latched WRITE payload (R26) -/
  wbuf      : List Byte
  /-- flash address of the step in progress (R26) -/
  cur       : Word
  /-- bytes of wbuf already programmed (R26) -/
  pos       : Word
  /-- length of the page-program chunk in progress (R26) -/
  chunk     : BitVec 9
  /-- current erase-unit index (R26) -/
  unit      : BitVec 11
  /-- end (exclusive) erase-unit index (R26) -/
  unitEnd   : BitVec 11
  /-- status reads done by the current poll (R26, R237) -/
  pollcnt   : Nat
  /-- bytes already verified by the readback in progress (R26) -/
  vpos      : BitVec 23
  /-- last status byte read (R26) -/
  sr        : Byte
  /-- result code of the last response (R26) -/
  result    : ResultCode
  /-- value of the last response (R26) -/
  value     : Word
  /-- read data of the last response (R26) -/
  rdata     : List Byte
  /-- payload of the last response (R26) -/
  payload   : Option Payload
  /-- the outstanding exchange (R23, R33) -/
  bus       : Option Exchange
  /-- the flash chip (R70) -/
  chip      : Chip
  /-- the block-reset input, one entry a step; none left: no reset arrives (R250; log entry 9) -/
  resetIn   : List ResetInput
  /-- requests offered at the host port, oldest first (R21; log entry 4) -/
  offers    : List HostRequest
  /-- responses delivered, oldest first (R22; log entry 5) -/
  responses : List Response
  /-- exchanges issued, oldest first (R15; log entry 5) -/
  trace     : List Exchange
  /-- a request was accepted whose response the host has not received (R262; log entry 28) -/
  awaiting  : Bool
  /-- the model's own: the environment's choices supplied for the coming exchanges (log entry 10) -/
  script    : List BusChoice
  /-- the model's own: how many free choices were taken (log entry 10) -/
  draws     : Nat
deriving DecidableEq, Repr

/-- A fault of the model. The block itself has no fault: its errors are responses (R220). -/
inductive Fault where
  /-- Raised by a wire command whose bytes reach past CAPACITY: such an address names nothing (R64, 91 N14), and the block
  never sends one (93 I13). Safe: the machine stops. -/
  | outsideArray
  /-- Raised by the fetch in an exchange-site phase with no exchange outstanding, a state no run reaches (R27). Safe: the
  machine stops. -/
  | noExchangeOutstanding
deriving DecidableEq, Repr

/-- Why the model gives no meaning. -/
inductive Refusal where
  /-- Raised by exec's arm of an instruction that has no meaning yet. Safe. -/
  | notModelled (mnemonic : String)
  /-- Raised by the fetch for an offer that is not a request (R21, R102, 93 I20), and by WRITE's meaning for data longer
  than R21 admits. Safe: the spec gives such an offer no step. -/
  | notARequest (e : DecodeError)
  /-- Raised by the fetch for an outstanding exchange that is none of R91's, a state no run reaches (R95). Safe. -/
  | notAnExchange (e : DecodeError)
  /-- Raised by a wire command that the sequencer has not outstanding in its phase (R95). Safe: the block never sends it
  there. -/
  | notOutstanding
  /-- Raised by PageProgram past the end of its page, which the block never sends (R58, 93 I13). Safe. -/
  | pastPageEnd
deriving DecidableEq, Repr

/-- The chip at power-on as the model names it (R81 leaves it open; log entries 6, 7, 8). -/
def Chip.powerOn : Chip := ⟨[], false, false, none, false, false, Config.uid⟩

/-- The machine right after a block reset with CTL_OK true (R33, R250), with the default parameters (log entry 1), the
chip as the log names it, no request offered, none unanswered and no input waiting (log entries 2, 4 to 10, 28). -/
def State.reset : State where
  params := Params.cfg0
  holdN := true
  wpN := true
  phase := .idle
  op := .unassigned0
  a := 0
  b := 0
  wbuf := []
  cur := 0
  pos := 0
  chunk := 0
  unit := 0
  unitEnd := 0
  pollcnt := 0
  vpos := 0
  sr := 0
  result := .ok
  value := 0
  rdata := []
  payload := none
  bus := none
  chip := Chip.powerOn
  resetIn := []
  offers := []
  responses := []
  trace := []
  awaiting := false
  script := []
  draws := 0

end Sys2Proof.Machine
end

