-- ==== Sys2Proof/Machine/Ops.lean ====
section
/-! DEFINITION. The named operations over memory and over the block's registers and ports: memory access, issuing an
exchange, delivering a response, and taking a request error (spec/60_exceptions.md R227), the block's trap entry. -/

/-- n received bytes that may be any value: those of the choice (log entry 10). -/
def Sys2Proof.BusChoice.received (c : BusChoice) (n : Nat) : List Byte :=
  (List.range n).map (fun i => c.bytes.getD i 0)

namespace Sys2Proof.Machine

open Config

/-! ### Memory (R50, R52, R55; log entry 6) -/

/-- What an address that is not listed reads as (log entry 6, DESIGN CHOICE: R81 says any value). -/
def Memory.unlisted : Byte := erasedByte

/-- The canonical form: addresses strictly rising, inside the array, and no entry equal to what an unlisted address
reads as. -/
abbrev Memory.wf (m : Memory) : Prop :=
  m.Pairwise (fun c d => c.1 < d.1) ∧ ∀ c ∈ m, c.1 < capacity ∧ c.2 ≠ Memory.unlisted

/-- The array byte at address a. -/
def Memory.read : Memory → Nat → Byte
  | [], _ => Memory.unlisted
  | c :: m, a => if c.1 = a then c.2 else Memory.read m a

/-- The cell of a byte, none where an unlisted address reads the same. -/
def Memory.cell (a : Nat) (v : Byte) : Memory := if v = Memory.unlisted then [] else [(a, v)]

/-- Puts the byte v at address a into the sorted list. -/
def Memory.insert : Memory → Nat → Byte → Memory
  | [], a, v => Memory.cell a v
  | c :: m, a, v =>
    if a < c.1 then Memory.cell a v ++ c :: m
    else if a = c.1 then Memory.cell a v ++ m
    else c :: Memory.insert m a v

/-- Stores a byte. An address at or past CAPACITY names nothing and stores nothing (R64). -/
def Memory.write (m : Memory) (a : Nat) (v : Byte) : Memory :=
  if a < capacity then Memory.insert m a v else m

/-- The bytes [x, x + n), lowest address first (R55). -/
def Memory.readRange (m : Memory) (x n : Nat) : List Byte :=
  (List.range n).map (fun i => Memory.read m (x + i))

/-- Programs the bytes d from address x on: each byte becomes the bitwise AND of old and new (R74; log entry 15). -/
def Memory.program (m : Memory) (x : Nat) : List Byte → Memory
  | [] => m
  | v :: d => Memory.program (Memory.write m x (Memory.read m x &&& v)) (x + 1) d

/-- Sets the bytes [base, base + size) to 0xFF (R75): no byte of the range stays listed. -/
def Memory.erase (m : Memory) (base size : Nat) : Memory :=
  m.filter (fun c => decide (c.1 < base ∨ base + size ≤ c.1))

/-- The memory that holds the given cells, the later ones winning, and 0xFF elsewhere. -/
def Memory.ofCells (l : List (Nat × Byte)) : Memory :=
  l.foldl (fun m c => Memory.write m c.1 c.2) []

/-! ### Free values (log entry 10) -/

/-- The environment's choices for the coming exchange: the next of the script, or a free one. -/
def State.choice (s : State) : BusChoice := s.script.head?.getD (freeChoice s.draws)

/-- The coming exchange's choices are used up. -/
def State.consume (s : State) : State :=
  { s with script := s.script.tail, draws := if s.script.isEmpty then s.draws + 1 else s.draws }

/-! ### Ports -/

/-- phase <- L, and the exchange of that site is presented on the bus port (R140). -/
def State.issue (L : Phase) (e : Exchange) (s : State) : State :=
  { s with phase := L, bus := some e, trace := s.trace ++ [e] }

/-- The phase after a response: IDLE, or CTLFAULT, which only a block reset leaves (R222, R227, R233). -/
def Phase.afterResponse : Phase → Phase
  | .ctlFault => .ctlFault
  | .idle | .sWe | .sWeRs | .sPp | .sSe | .sBe32 | .sBe64 | .sCe | .sPoll | .sVfy | .sRd | .sId | .sRstEn | .sRst
  | .sPd | .sRpd => .idle

/-- Ends the request: the response registers are written and the response is delivered, so the host has it (R22, R227,
R262). No exchange is outstanding any more and the WRITE payload does not outlive its request, while the response registers,
rdata among them, keep the last response (R32, R26; log entry 21, the model's choice). -/
def State.deliver (r : Response) (s : State) : State :=
  { s with
    result := r.result, value := r.value, rdata := r.rdata, payload := r.payload
    phase := s.phase.afterResponse, bus := none, wbuf := [], responses := s.responses ++ [r], awaiting := false }

/-- respond(OK, value, rdata) (R10, R22). -/
def State.respond (value : Word) (rdata : List Byte) (s : State) : State :=
  s.deliver ⟨.ok, value, rdata, none⟩

/-- code(E) (R220). -/
def ReqError.result : ReqError → ResultCode
  | .transportError _ => .transportError
  | .controlLineError => .controlLineError
  | .notAligned => .notAligned
  | .outOfBounds => .outOfBounds
  | .writeEnableFail => .writeEnableFail
  | .readbackFail => .readbackFail
  | .timeout => .timeout
  | .unsupported => .unsupported

/-- The payload of the response: some p exactly for a TransportError (R22, R227). -/
def ReqError.carried : ReqError → Option Payload
  | .transportError p => some p
  | .controlLineError | .notAligned | .outOfBounds | .writeEnableFail | .readbackFail | .timeout | .unsupported => none

/-- The number of a result code (R220). -/
def ResultCode.code : ResultCode → BitVec 4
  | .ok => 0
  | .transportError => 1
  | .controlLineError => 2
  | .notAligned => 3
  | .outOfBounds => 4
  | .writeEnableFail => 5
  | .readbackFail => 6
  | .timeout => 7
  | .unsupported => 8

/-- raise E (R227), the one operation that takes a request error: result, value, rdata and payload are written, the
response is delivered and the phase becomes IDLE or stays CTLFAULT. There is nothing to restore and no return
instruction (R233): after the response the block accepts the next request. -/
def State.raise (e : ReqError) (s : State) : State :=
  s.deliver ⟨e.result, 0, [], e.carried⟩

/-- Accepting a request latches its op and operands (R26; log entry 22); its response is then awaited (R262). -/
def State.latch (op : HostOp) (a b : Word) (s : State) : State :=
  { s with op := op, a := a, b := b, awaiting := true }

/-- A host request at the port (R21, R231): in IDLE it is accepted and its procedure starts; in CTLFAULT it is accepted
and answered ControlLineError; in any other phase the offer is held and nothing happens. -/
def State.request (op : HostOp) (a b : Word) (body : State → State) (s : State) : Host.Outcome State Fault Refusal :=
  match s.phase with
  | .idle => .next (body (s.latch op a b))
  | .ctlFault => .next ((s.latch op a b).raise .controlLineError)
  | .sWe | .sWeRs | .sPp | .sSe | .sBe32 | .sBe64 | .sCe | .sPoll | .sVfy | .sRd | .sId | .sRstEn | .sRst | .sPd
  | .sRpd => .next s

end Sys2Proof.Machine
end

