-- ==== Sys2Proof/Machine/Flags.lean ====
section
/-! DEFINITION. The flags: the two bits of the chip's status register that the block reads (spec/10_state.md R29, R30;
spec/41_exchange_gate_poll.md R142). The block has no flags of its own. -/

namespace Sys2Proof.Machine

/-- BUSY(sr) = sr[0] (R142). -/
def statusBusy (sr : Byte) : Bool := sr.getLsbD 0

/-- WEL(sr) = sr[1] (R142). -/
def statusWel (sr : Byte) : Bool := sr.getLsbD 1

/-- The status byte a chip sends: bit 0 BUSY, bit 1 WEL, bits 7..2 any value, here those of free (R30, R71). -/
def statusByte (busy wel : Bool) (free : Byte) : Byte :=
  (free.extractLsb' 2 6 ++ BitVec.ofBool wel) ++ BitVec.ofBool busy

end Sys2Proof.Machine
end

