-- ==== Sys2Proof/Machine/Operands.lean ====
section
/-! DEFINITION. The operands of the exchanges: erase-unit addresses (spec/30_encoding.md R93), page-program chunks
(spec/42_read_write.md R161), the expected bytes of a readback (spec/41_exchange_gate_poll.md R146), and which exchange
the sequencer has outstanding in each phase (spec/10_state.md R27). -/

namespace Sys2Proof

open Config

/-- The requests that send a PageProgram or an erase (R14). -/
def HostOp.mutates : HostOp → Bool
  | .write | .erase | .eraseSector | .eraseBlock32K | .eraseBlock64K | .eraseChip => true
  | .unassigned0 | .read | .deviceId | .reset | .capacity | .powerDown | .releasePowerDown | .waitIdle | .unassignedE
  | .unassignedF => false

/-- The poll kind of the request's polls (R145). -/
def HostOp.pollKind : HostOp → PollKind
  | .write => .pp
  | .erase => .se
  | .eraseSector => .se
  | .eraseBlock32K => .be32
  | .eraseBlock64K => .be64
  | .eraseChip => .ce
  | .unassigned0 | .read | .deviceId | .reset | .capacity | .powerDown | .releasePowerDown | .waitIdle | .unassignedE
  | .unassignedF => .idle

/-- The size of the request's erase unit (R180 to R185); 0 for a request that erases nothing. -/
def HostOp.unitSize : HostOp → Nat
  | .erase => sectorSize
  | .eraseSector => sectorSize
  | .eraseBlock32K => block32KSize
  | .eraseBlock64K => block64KSize
  | .eraseChip => Config.capacity
  | .unassigned0 | .read | .write | .deviceId | .reset | .capacity | .powerDown | .releasePowerDown | .waitIdle
  | .unassignedE | .unassignedF => 0

end Sys2Proof

namespace Sys2Proof.Machine

open Config

/-- The index of the erase unit in progress: the register unit for ERASE, operand a for a per-unit erase, 0 for the chip
(R180 to R185; log entry 23). -/
def State.unitIndex (s : State) : Nat :=
  if s.op = .erase then s.unit.toNat else if s.op = .eraseChip then 0 else s.a.toNat

/-- The first byte of the erase unit in progress: x = i * unit_size (R93). -/
def State.unitBase (s : State) : Nat := s.unitIndex * s.op.unitSize

/-- The bytes of the page-program chunk in progress, wbuf[pos .. pos + chunk) (R94, R161). -/
def State.chunkData (s : State) : List Byte := (s.wbuf.drop s.pos.toNat).take s.chunk.toNat

/-- The site and the exchange of the request's program or erase command (R27, R162, R180); none for a request that has
no such command. -/
def State.command (s : State) : Option (Phase × Exchange) :=
  match s.op with
  | .write => some (.sPp, Exchange.pageProgram (wireAddr s.cur.toNat) s.chunkData)
  | .erase => some (.sSe, Exchange.sectorErase (wireAddr s.unitBase))
  | .eraseSector => some (.sSe, Exchange.sectorErase (wireAddr s.unitBase))
  | .eraseBlock32K => some (.sBe32, Exchange.blockErase32K (wireAddr s.unitBase))
  | .eraseBlock64K => some (.sBe64, Exchange.blockErase64K (wireAddr s.unitBase))
  | .eraseChip => some (.sCe, Exchange.chipErase)
  | .unassigned0 | .read | .deviceId | .reset | .capacity | .powerDown | .releasePowerDown | .waitIdle | .unassignedE
  | .unassignedF => none

/-- Where the readback of the step in progress starts: the chunk's offset or the unit's (R162, R180). -/
def State.verifyBase (s : State) : Nat := if s.op = .write then s.cur.toNat else s.unitBase

/-- How many bytes the readback expects: the chunk's, or the whole unit (R162, R180). -/
def State.verifyLength (s : State) : Nat := if s.op = .write then s.chunk.toNat else s.op.unitSize

/-- The length of the readback chunk at vpos: min(READBACK_CHUNK, |e| - vpos) (R146). -/
def State.readbackLength (s : State) : Nat := min readbackChunk (s.verifyLength - s.vpos.toNat)

/-- The expected bytes e[vpos .. vpos + n) of the readback chunk: the chunk just sent, or 0xFF for an erase (R146). -/
def State.readbackExpected (s : State) : List Byte :=
  if s.op = .write then (s.chunkData.drop s.vpos.toNat).take s.readbackLength
  else List.replicate s.readbackLength erasedByte

/-- The length of the first chunk of a WRITE: min(PAGE_SIZE - (a mod PAGE_SIZE), |data|) (R161 step 2). -/
def firstChunk (a len : Nat) : Nat := min (pageSize - a % pageSize) len

/-- The length of a later chunk of a WRITE: min(|data| - pos, PAGE_SIZE) (R161 step 4). -/
def laterChunk (len pos : Nat) : Nat := min (len - pos) pageSize

/-- Which requests reach which exchange site (R27 and the procedures of 41 to 44). -/
def Phase.serves : Phase → HostOp → Bool
  | .idle, _ => false
  | .ctlFault, _ => false
  | .sWe, op => HostOp.mutates op
  | .sWeRs, op => HostOp.mutates op
  | .sPp, op => decide (op = .write)
  | .sSe, op => decide (op = .erase) || decide (op = .eraseSector)
  | .sBe32, op => decide (op = .eraseBlock32K)
  | .sBe64, op => decide (op = .eraseBlock64K)
  | .sCe, op => decide (op = .eraseChip)
  | .sPoll, op => HostOp.mutates op || decide (op = .waitIdle)
  | .sVfy, op => HostOp.mutates op
  | .sRd, op => decide (op = .read)
  | .sId, op => decide (op = .deviceId)
  | .sRstEn, op => decide (op = .reset)
  | .sRst, op => decide (op = .reset)
  | .sPd, op => decide (op = .powerDown)
  | .sRpd, op => decide (op = .releasePowerDown)

/-- The sequencer is at site L in the procedure of a request that has that site. -/
def State.atSite (s : State) (L : Phase) : Bool := decide (s.phase = L) && L.serves s.op

/-- The exchange of the phase, from the registers: what is outstanding while the phase is a site (R27). -/
def State.siteExchange (s : State) : Option Exchange :=
  match s.phase with
  | .idle => none
  | .ctlFault => none
  | .sWe => some Exchange.writeEnable
  | .sWeRs => some Exchange.readStatusRegister1
  | .sPp => some (Exchange.pageProgram (wireAddr s.cur.toNat) s.chunkData)
  | .sSe => some (Exchange.sectorErase (wireAddr s.unitBase))
  | .sBe32 => some (Exchange.blockErase32K (wireAddr s.unitBase))
  | .sBe64 => some (Exchange.blockErase64K (wireAddr s.unitBase))
  | .sCe => some Exchange.chipErase
  | .sPoll => some Exchange.readStatusRegister1
  | .sVfy => some (Exchange.readData (wireAddr (s.verifyBase + s.vpos.toNat)) s.readbackLength)
  | .sRd => some (Exchange.readData (wireAddr s.a.toNat) s.b.toNat)
  | .sId => some Exchange.uniqueId
  | .sRstEn => some Exchange.enableReset
  | .sRst => some Exchange.reset
  | .sPd => some Exchange.powerDown
  | .sRpd => some Exchange.releasePowerDown

end Sys2Proof.Machine
end

