-- ==== Sys2Proof/Machine/Chip.lean ====
section
/-! DEFINITION. The chip reference model (spec/20_memory.md R70 to R81): what a conforming chip does with each wire
command and what it sends back, with every draw of the spec taken from the environment's choices. -/

namespace Sys2Proof

open Machine

/-- What the array holds once the operation has completed (R74, R75). -/
def ChipOp.apply (m : Memory) : ChipOp → Memory
  | .program x d => Memory.program m x d
  | .erase base size => Memory.erase m base size

/-- The addresses the operation may change (R74, R75). -/
def ChipOp.covers : ChipOp → Nat → Bool
  | .program x d, a => decide (x ≤ a) && decide (a < x + d.length)
  | .erase base size, a => decide (base ≤ a) && decide (a < base + size)

end Sys2Proof

namespace Sys2Proof.Machine

open Config

/-- WEL after completion: a program of at least one byte and every erase clear it (R74, R75). A program with no data (R74,
R259) and a chip that is busy with no operation known (R79, R80) leave it open: a free value (log entries 12 and 14, the
model's choice). -/
def Chip.latchAfter (c : BusChoice) : Option ChipOp → Bool
  | some (.program _ (_ :: _)) => false
  | some (.erase _ _) => false
  | some (.program _ []) => c.latchKept
  | none => c.latchKept

/-- Completion of the operation in flight: its effect is on the array and BUSY becomes 0 (R74, R75); WEL as latchAfter
says. -/
def Chip.complete (c : BusChoice) (ch : Chip) : Chip :=
  { ch with
    arr := match ch.inflight with | none => ch.arr | some op => op.apply ch.arr
    busy := false, wel := Chip.latchAfter c ch.inflight, inflight := none }

/-- Before an exchange a busy chip may complete what it is doing: how long that takes is a draw (R76; log entry 12). -/
def Chip.settle (c : BusChoice) (ch : Chip) : Chip :=
  if ch.busy && c.done then ch.complete c else ch

/-- Nothing is known of the chip any more but its identifier (R80; log entry 13). -/
def Chip.scramble (c : BusChoice) (ch : Chip) : Chip :=
  ⟨Memory.ofCells c.cells, c.busy, c.wel, c.inflight, c.poweredDown, c.resetEnabled, ch.uid⟩

/-- A command other than a status read, of n received bytes: a busy chip ignores it and sends any bytes (R73); a
powered-down chip may ignore it and sends any bytes (R79); else it has its effect. -/
def Chip.command (n : Nat) (effect : Chip → Chip × List Byte) (c : BusChoice) (ch : Chip) : Chip × List Byte :=
  if ch.busy then (ch, c.received n)
  else if ch.poweredDown then (if c.ignored then ch else (effect ch).1, c.received n)
  else effect ch

/-- An accepted program or erase: BUSY is set and the operation is in flight. -/
def Chip.start (op : ChipOp) (ch : Chip) : Chip := { ch with busy := true, inflight := some op }

/-- PageProgram (R74): ignored without the latch. With no data bytes it changes no byte, and BUSY and WEL after it are
draws, with the latch or without it, which include that it was ignored (93 I8; log entry 14). -/
def Chip.pageProgram (x : Addr) (d : List Byte) : BusChoice → Chip → Chip × List Byte := fun c =>
  Chip.command 0 (fun ch =>
    if d.isEmpty then
      ({ ch with busy := c.busy, wel := c.wel, inflight := if c.busy then some (.program x.toNat d) else ch.inflight }, [])
    else if ch.wel then (ch.start (.program x.toNat d), [])
    else (ch, [])) c

/-- ReadData (R77): n bytes from address x on. -/
def Chip.readData (x : Addr) (n : Nat) : BusChoice → Chip → Chip × List Byte :=
  Chip.command n (fun ch => (ch, Memory.readRange ch.arr x.toNat n))

/-- Status read (R71): accepted busy or not; the byte after the opcode is the status byte. A powered-down chip sends any
bytes (R79). -/
def Chip.readStatusRegister1 (c : BusChoice) (ch : Chip) : Chip × List Byte :=
  if ch.poweredDown then (ch, c.received 2)
  else (ch, [c.bytes.getD 0 0, statusByte ch.busy ch.wel (c.bytes.getD 1 0)])

/-- WriteEnable (R72): the latch is set. -/
def Chip.writeEnable : BusChoice → Chip → Chip × List Byte :=
  Chip.command 0 (fun ch => ({ ch with wel := true }, []))

/-- An erase of the size bytes from base on (R75): ignored without the latch. -/
def Chip.eraseUnit (base size : Nat) : BusChoice → Chip → Chip × List Byte :=
  Chip.command 0 (fun ch => if ch.wel then (ch.start (.erase base size), []) else (ch, []))

/-- The first byte of the unit of that size that contains x (R75). -/
def unitOf (x size : Nat) : Nat := x / size * size

/-- SectorErase (R75): the sector that contains x. -/
def Chip.sectorErase (x : Addr) : BusChoice → Chip → Chip × List Byte :=
  Chip.eraseUnit (unitOf x.toNat sectorSize) sectorSize

/-- BlockErase32K (R75): the 32K block that contains x. -/
def Chip.blockErase32K (x : Addr) : BusChoice → Chip → Chip × List Byte :=
  Chip.eraseUnit (unitOf x.toNat block32KSize) block32KSize

/-- BlockErase64K (R75): the 64K block that contains x. -/
def Chip.blockErase64K (x : Addr) : BusChoice → Chip → Chip × List Byte :=
  Chip.eraseUnit (unitOf x.toNat block64KSize) block64KSize

/-- ChipErase (R75): the whole array. -/
def Chip.chipErase : BusChoice → Chip → Chip × List Byte :=
  Chip.eraseUnit 0 capacity

/-- UniqueId (R78): five bytes of any value, then the identifier. -/
def Chip.uniqueId : BusChoice → Chip → Chip × List Byte := fun c =>
  Chip.command idFrameLen (fun ch => (ch, c.received 5 ++ ch.uid.toList)) c

/-- EnableReset (R79): the reset-enable state is a draw, nothing else is said (log entry 16). -/
def Chip.enableReset : BusChoice → Chip → Chip × List Byte := fun c =>
  Chip.command 0 (fun ch => ({ ch with resetEnabled := c.resetEnabled }, [])) c

/-- Reset (R79): BUSY and WEL are any value, an operation in flight may or may not have completed, the array is otherwise
unchanged. A busy or powered-down chip may ignore it, which these draws include (log entry 17). -/
def Chip.reset (c : BusChoice) (ch : Chip) : Chip × List Byte :=
  ({ ch with
      busy := c.busy, wel := c.wel, inflight := if c.busy then ch.inflight else none
      resetEnabled := c.resetEnabled }, [])

/-- PowerDown (R79, R240): the chip is powered down until a ReleasePowerDown; what survives is not in the source, so the
rest of its state is a draw (log entry 18). -/
def Chip.powerDown : BusChoice → Chip → Chip × List Byte := fun c =>
  Chip.command 0 (fun ch => ({ ch.scramble c with poweredDown := true }, [])) c

/-- ReleasePowerDown (R79): ends the power-down; a busy chip ignores it (R73; log entry 19). -/
def Chip.releasePowerDown (_ : BusChoice) (ch : Chip) : Chip × List Byte :=
  if ch.busy then (ch, []) else ({ ch with poweredDown := false }, [])

/-- What the chip does with a wire command; a host request never reaches it. -/
def Chip.react : Instr → BusChoice → Chip → Chip × List Byte
  | .pageProgram x d => Chip.pageProgram x d
  | .readData x n => Chip.readData x n
  | .readStatusRegister1 => Chip.readStatusRegister1
  | .writeEnable => Chip.writeEnable
  | .sectorErase x => Chip.sectorErase x
  | .blockErase32K x => Chip.blockErase32K x
  | .uniqueId => Chip.uniqueId
  | .blockErase64K x => Chip.blockErase64K x
  | .chipErase => Chip.chipErase
  | .enableReset => Chip.enableReset
  | .reset => Chip.reset
  | .powerDown => Chip.powerDown
  | .releasePowerDown => Chip.releasePowerDown
  | .hostRead _ _ | .hostWrite _ _ | .hostErase _ _ | .hostDeviceId _ _ | .hostReset _ _ | .hostCapacity _ _
  | .hostEraseSector _ _ | .hostEraseBlock32K _ _ | .hostEraseBlock64K _ _ | .hostEraseChip _ _ | .hostPowerDown _ _
  | .hostReleasePowerDown _ _ | .hostWaitIdle _ _ | .hostUnassigned0 _ _ | .hostUnassignedE _ _
  | .hostUnassignedF _ _ => fun _ ch => (ch, [])

end Sys2Proof.Machine
end

