-- ==== Sys2Proof/Machine/Procedures.lean ====
section
/-! DEFINITION. The sub-procedures of spec/41_exchange_gate_poll.md and the loops of spec/42_read_write.md and
spec/43_erase.md, cut at their exchanges: each definition runs from one answer to the next exchange or to the response
(spec/10_state.md R27). -/

namespace Sys2Proof.Machine

open Config

/-- The answer to the outstanding exchange (R140): on Err the request ends with TransportError and the chip is any (R80);
on Ok the chip has reacted and the procedure goes on with the bytes received. -/
def State.exchange (act : BusChoice → Chip → Chip × List Byte) (go : List Byte → State → State) (s : State) : State :=
  match s.choice.err with
  | some p => State.raise (.transportError p) { s.consume with chip := s.chip.scramble s.choice }
  | none =>
    let r := act s.choice (s.chip.settle s.choice)
    go r.2 { s.consume with chip := r.1 }

/-- A wire command: it runs as the exchange of the site the sequencer is at, and nowhere else (R95, R140). -/
def State.runAt (L : Phase) (act : BusChoice → Chip → Chip × List Byte) (go : List Byte → State → State) (s : State) :
    Host.Outcome State Fault Refusal :=
  if s.atSite L then .next (s.exchange act go) else .refused .notOutstanding

/-- Write-enable gate, first exchange (R143). -/
def State.enterGate (s : State) : State := s.issue .sWe Exchange.writeEnable

/-- The program or erase command of the request, after a gate that did not fail (R162, R180). -/
def State.enterCommand (s : State) : State :=
  match s.command with
  | some (L, e) => s.issue L e
  | none => s

/-- Write-enable gate, after the WriteEnable exchange (R143). -/
def State.afterWriteEnable (s : State) : State :=
  if s.params.verifyWe then s.issue .sWeRs Exchange.readStatusRegister1 else s.enterCommand

/-- sr <- rx[1] (R141). -/
def State.readStatus (rx : List Byte) (s : State) : State := { s with sr := rx.getD 1 0 }

/-- Write-enable gate, after its status read (R143): only WEL is tested. -/
def State.afterGateStatus (rx : List Byte) (s : State) : State :=
  let s := s.readStatus rx
  if statusWel s.sr then s.enterCommand else s.raise .writeEnableFail

/-- WaitReady's start: pollcnt <- 0 and the first status read (R144). -/
def State.waitReady (s : State) : State :=
  { s with pollcnt := 0 }.issue .sPoll Exchange.readStatusRegister1

/-- PageProgramStep up to its gate: the page check, then the gate (R162). -/
def State.pageProgramStep (s : State) : State :=
  if s.cur.toNat % pageSize + s.chunk.toNat > pageSize then s.raise .outOfBounds else s.enterGate

/-- The loop of WRITE after a chunk: advance, then the next chunk or the response (R161). -/
def State.nextChunk (s : State) : State :=
  let pos := s.pos.toNat + s.chunk.toNat
  let len := laterChunk s.wbuf.length pos
  let s := { s with
    pos := BitVec.ofNat 32 pos, cur := BitVec.ofNat 32 (s.cur.toNat + s.chunk.toNat), chunk := BitVec.ofNat 9 len }
  if len = 0 then s.respond 0 [] else s.pageProgramStep

/-- The loop of ERASE: the next sector's gate, or the response (R185). -/
def State.eraseLoop (s : State) : State :=
  if s.unit.toNat < s.unitEnd.toNat then s.enterGate else s.respond 0 []

/-- After a page program or an erase unit is complete (R161, R180 to R185). -/
def State.afterUnit (s : State) : State :=
  if s.op = .write then s.nextChunk
  else if s.op = .erase then { s with unit := BitVec.ofNat 11 (s.unit.toNat + 1) }.eraseLoop
  else s.respond 0 []

/-- The readback loop (R146): the next chunk's read, or the end of the verification. -/
def State.verifyLoop (s : State) : State :=
  if s.vpos.toNat < s.verifyLength then
    s.issue .sVfy (Exchange.readData (wireAddr (s.verifyBase + s.vpos.toNat)) s.readbackLength)
  else s.afterUnit

/-- The readback's answer (R146): compared as a whole chunk. -/
def State.afterReadback (rx : List Byte) (s : State) : State :=
  if rx = s.readbackExpected then
    { s with vpos := BitVec.ofNat 23 (s.vpos.toNat + s.readbackLength) }.verifyLoop
  else s.raise .readbackFail

/-- After the poll saw BUSY = 0: WAIT_IDLE responds (R205); a mutating step is verified when READBACK_VERIFY, or done
(R148, R162, R180). -/
def State.afterReady (s : State) : State :=
  if s.op.mutates then
    if s.params.readbackVerify then { s with vpos := 0 }.verifyLoop else s.afterUnit
  else s.respond 0 []

/-- The poll's answer (R144): BUSY is tested before the limit. -/
def State.afterPoll (rx : List Byte) (s : State) : State :=
  let s := { s.readStatus rx with pollcnt := s.pollcnt + 1 }
  if statusBusy s.sr then
    match s.params.pollLimit.limit s.op.pollKind with
    | some l =>
      if l ≤ s.pollcnt then s.raise .timeout else s.issue .sPoll Exchange.readStatusRegister1
    | none => s.issue .sPoll Exchange.readStatusRegister1
  else s.afterReady

end Sys2Proof.Machine
end

