-- ==== Sys2Proof/Machine/Erase.lean ====
section
/-! DEFINITION. The meanings of the erase requests (spec/43_erase.md): the step that accepts the request, up to the first
gate's exchange or the response. -/

namespace Sys2Proof.Machine

open Config

/-- A per-unit erase: the index is checked against the unit count, then EraseUnit's gate (R180 to R183). -/
def State.eraseIndexed (index : Word) (count : Nat) (s : State) : State :=
  if count ≤ index.toNat then s.raise .outOfBounds else s.enterGate

/-- ERASE (R185): alignment, then order, then the capacity bound, then the sectors one after another. -/
def execHostErase (first last : Word) (s : State) : Host.Outcome State Fault Refusal :=
  s.request .erase first last (fun s =>
    if first.toNat % sectorSize ≠ 0 ∨ last.toNat % sectorSize ≠ 0 then s.raise .notAligned
    else if last.toNat < first.toNat then s.raise .outOfBounds
    else if capacity < last.toNat then s.raise .outOfBounds
    else
      { s with
        unit := BitVec.ofNat 11 (first.toNat / sectorSize)
        unitEnd := BitVec.ofNat 11 (last.toNat / sectorSize) }.eraseLoop)

/-- ERASE_SECTOR (R181). -/
def execHostEraseSector (a b : Word) (s : State) : Host.Outcome State Fault Refusal :=
  s.request .eraseSector a b (State.eraseIndexed a nSectors)

/-- ERASE_BLOCK32K (R182). -/
def execHostEraseBlock32K (a b : Word) (s : State) : Host.Outcome State Fault Refusal :=
  s.request .eraseBlock32K a b (State.eraseIndexed a nBlocks32K)

/-- ERASE_BLOCK64K (R183). -/
def execHostEraseBlock64K (a b : Word) (s : State) : Host.Outcome State Fault Refusal :=
  s.request .eraseBlock64K a b (State.eraseIndexed a nBlocks64K)

/-- ERASE_CHIP (R184): no operand check. -/
def execHostEraseChip (a b : Word) (s : State) : Host.Outcome State Fault Refusal :=
  s.request .eraseChip a b State.enterGate

end Sys2Proof.Machine
end

