-- ==== Sys2Proof/Machine/ReadWrite.lean ====
section
/-! DEFINITION. The meanings of READ and WRITE (spec/42_read_write.md): the step that accepts the request, up to its first
exchange or its response. -/

namespace Sys2Proof.Machine

open Config

/-- READ (R160): the bounds check over unbounded numbers, then one ReadData exchange. -/
def execHostRead (a n : Word) (s : State) : Host.Outcome State Fault Refusal :=
  s.request .read a n (fun s =>
    if capacity < a.toNat + n.toNat then s.raise .outOfBounds
    else s.issue .sRd (Exchange.readData (wireAddr a.toNat) n.toNat))

/-- WRITE (R161): the bounds check, then the first chunk's step, which is always taken. Data longer than R21 admits is no
request. -/
def execHostWrite (a : Word) (data : List Byte) (s : State) : Host.Outcome State Fault Refusal :=
  if 2 ^ 32 ≤ data.length then .refused (.notARequest (.wrongDataLength .write))
  else s.request .write a (BitVec.ofNat 32 data.length) (fun s =>
    if capacity < a.toNat + data.length then s.raise .outOfBounds
    else
      { s with
        wbuf := data, cur := a, pos := 0
        chunk := BitVec.ofNat 9 (firstChunk a.toNat data.length) }.pageProgramStep)

end Sys2Proof.Machine
end

