-- ==== Sys2Proof/Machine/Service.lean ====
section
/-! DEFINITION. The meanings of the identity, reset, power and service requests and of the unassigned op codes
(spec/44_identity_reset_power.md). -/

namespace Sys2Proof.Machine

open Config

/-- DEVICE_ID (R200): one 13-byte transfer in place. -/
def execHostDeviceId (a b : Word) (s : State) : Host.Outcome State Fault Refusal :=
  s.request .deviceId a b (State.issue .sId Exchange.uniqueId)

/-- RESET (R201): EnableReset first, Reset after its answer. -/
def execHostReset (a b : Word) (s : State) : Host.Outcome State Fault Refusal :=
  s.request .reset a b (State.issue .sRstEn Exchange.enableReset)

/-- CAPACITY (R202): no exchange. -/
def execHostCapacity (a b : Word) (s : State) : Host.Outcome State Fault Refusal :=
  s.request .capacity a b (State.respond (BitVec.ofNat 32 capacity) [])

/-- POWER_DOWN (R203). -/
def execHostPowerDown (a b : Word) (s : State) : Host.Outcome State Fault Refusal :=
  s.request .powerDown a b (State.issue .sPd Exchange.powerDown)

/-- RELEASE_POWER_DOWN (R204). -/
def execHostReleasePowerDown (a b : Word) (s : State) : Host.Outcome State Fault Refusal :=
  s.request .releasePowerDown a b (State.issue .sRpd Exchange.releasePowerDown)

/-- WAIT_IDLE (R205): the completion poller alone. -/
def execHostWaitIdle (a b : Word) (s : State) : Host.Outcome State Fault Refusal :=
  s.request .waitIdle a b State.waitReady

/-- The unassigned op 0x0 (R206): Unsupported. -/
def execHostUnassigned0 (a b : Word) (s : State) : Host.Outcome State Fault Refusal :=
  s.request .unassigned0 a b (State.raise .unsupported)

/-- The unassigned op 0xE (R206): Unsupported. -/
def execHostUnassignedE (a b : Word) (s : State) : Host.Outcome State Fault Refusal :=
  s.request .unassignedE a b (State.raise .unsupported)

/-- The unassigned op 0xF (R206): Unsupported. -/
def execHostUnassignedF (a b : Word) (s : State) : Host.Outcome State Fault Refusal :=
  s.request .unassignedF a b (State.raise .unsupported)

end Sys2Proof.Machine
end

