-- ==== Sys2Proof/Machine/Wire.lean ====
section
/-! DEFINITION. The meanings of the thirteen wire commands (spec/40_wire_commands.md): the chip's reaction, then the
sequencer's way to its next exchange or to the response. -/

namespace Sys2Proof.Machine

open Config

/-- PageProgram (R121): at S_PP, then the completion poll (R162). Past CAPACITY, or past the end of its page, the block
never sends it (R58, 93 I13). -/
def execPageProgram (x : Addr) (d : List Byte) (s : State) : Host.Outcome State Fault Refusal :=
  if capacity < x.toNat + d.length then .fault .outsideArray
  else if pageSize < x.toNat % pageSize + d.length then .refused .pastPageEnd
  else s.runAt .sPp (Chip.pageProgram x d) (fun _ => State.waitReady)

/-- ReadData (R122): at S_RD the bytes are READ's answer (R160); at S_VFY they are compared (R146). -/
def execReadData (x : Addr) (n : Nat) (s : State) : Host.Outcome State Fault Refusal :=
  if capacity < x.toNat + n then .fault .outsideArray
  else if s.phase = .sVfy then s.runAt .sVfy (Chip.readData x n) State.afterReadback
  else s.runAt .sRd (Chip.readData x n) (fun rx => State.respond 0 rx)

/-- ReadStatusRegister1 (R123): at S_WE_RS the gate's check (R143); at S_POLL the completion poll (R144). -/
def execReadStatusRegister1 (s : State) : Host.Outcome State Fault Refusal :=
  if s.phase = .sWeRs then s.runAt .sWeRs Chip.readStatusRegister1 State.afterGateStatus
  else s.runAt .sPoll Chip.readStatusRegister1 State.afterPoll

/-- WriteEnable (R124): at S_WE. -/
def execWriteEnable (s : State) : Host.Outcome State Fault Refusal :=
  s.runAt .sWe Chip.writeEnable (fun _ => State.afterWriteEnable)

/-- SectorErase (R125): at S_SE, then the completion poll (R180). -/
def execSectorErase (x : Addr) (s : State) : Host.Outcome State Fault Refusal :=
  if capacity ≤ x.toNat then .fault .outsideArray
  else s.runAt .sSe (Chip.sectorErase x) (fun _ => State.waitReady)

/-- BlockErase32K (R126): at S_BE32, then the completion poll (R180). -/
def execBlockErase32K (x : Addr) (s : State) : Host.Outcome State Fault Refusal :=
  if capacity ≤ x.toNat then .fault .outsideArray
  else s.runAt .sBe32 (Chip.blockErase32K x) (fun _ => State.waitReady)

/-- UniqueId (R127): at S_ID; DEVICE_ID's answer is rx[5 .. 13) (R200). -/
def execUniqueId (s : State) : Host.Outcome State Fault Refusal :=
  s.runAt .sId Chip.uniqueId (fun rx => State.respond 0 ((rx.drop 5).take 8))

/-- BlockErase64K (R128): at S_BE64, then the completion poll (R180). -/
def execBlockErase64K (x : Addr) (s : State) : Host.Outcome State Fault Refusal :=
  if capacity ≤ x.toNat then .fault .outsideArray
  else s.runAt .sBe64 (Chip.blockErase64K x) (fun _ => State.waitReady)

/-- ChipErase (R129): at S_CE, then the completion poll (R180). -/
def execChipErase (s : State) : Host.Outcome State Fault Refusal :=
  s.runAt .sCe Chip.chipErase (fun _ => State.waitReady)

/-- EnableReset (R130): at S_RST_EN; Reset follows as an exchange of its own (R201). -/
def execEnableReset (s : State) : Host.Outcome State Fault Refusal :=
  s.runAt .sRstEn Chip.enableReset (fun _ => State.issue .sRst Exchange.reset)

/-- Reset (R131): at S_RST; RESET responds (R201). -/
def execReset (s : State) : Host.Outcome State Fault Refusal :=
  s.runAt .sRst Chip.reset (fun _ => State.respond 0 [])

/-- PowerDown (R132): at S_PD; POWER_DOWN responds (R203). -/
def execPowerDown (s : State) : Host.Outcome State Fault Refusal :=
  s.runAt .sPd Chip.powerDown (fun _ => State.respond 0 [])

/-- ReleasePowerDown (R133): at S_RPD; RELEASE_POWER_DOWN responds (R204). -/
def execReleasePowerDown (s : State) : Host.Outcome State Fault Refusal :=
  s.runAt .sRpd Chip.releasePowerDown (fun _ => State.respond 0 [])

end Sys2Proof.Machine
end

