-- ==== Sys2Proof/Machine/Dispatch.lean ====
section
/-! DEFINITION. exec: one arm per constructor of Instr, each a direct call of that instruction's meaning. -/

namespace Sys2Proof.Machine

/-- The meaning of every instruction of spec/opcode_table.json. -/
def exec (i : Instr) (s : State) : Host.Outcome State Fault Refusal :=
  match i with
  | .pageProgram x d => Sys2Proof.Machine.execPageProgram x d s
  | .readData x n => Sys2Proof.Machine.execReadData x n s
  | .readStatusRegister1 => Sys2Proof.Machine.execReadStatusRegister1 s
  | .writeEnable => Sys2Proof.Machine.execWriteEnable s
  | .sectorErase x => Sys2Proof.Machine.execSectorErase x s
  | .blockErase32K x => Sys2Proof.Machine.execBlockErase32K x s
  | .uniqueId => Sys2Proof.Machine.execUniqueId s
  | .blockErase64K x => Sys2Proof.Machine.execBlockErase64K x s
  | .chipErase => Sys2Proof.Machine.execChipErase s
  | .enableReset => Sys2Proof.Machine.execEnableReset s
  | .reset => Sys2Proof.Machine.execReset s
  | .powerDown => Sys2Proof.Machine.execPowerDown s
  | .releasePowerDown => Sys2Proof.Machine.execReleasePowerDown s
  | .hostRead a n => Sys2Proof.Machine.execHostRead a n s
  | .hostWrite a data => Sys2Proof.Machine.execHostWrite a data s
  | .hostErase first last => Sys2Proof.Machine.execHostErase first last s
  | .hostDeviceId a b => Sys2Proof.Machine.execHostDeviceId a b s
  | .hostReset a b => Sys2Proof.Machine.execHostReset a b s
  | .hostCapacity a b => Sys2Proof.Machine.execHostCapacity a b s
  | .hostEraseSector a b => Sys2Proof.Machine.execHostEraseSector a b s
  | .hostEraseBlock32K a b => Sys2Proof.Machine.execHostEraseBlock32K a b s
  | .hostEraseBlock64K a b => Sys2Proof.Machine.execHostEraseBlock64K a b s
  | .hostEraseChip a b => Sys2Proof.Machine.execHostEraseChip a b s
  | .hostPowerDown a b => Sys2Proof.Machine.execHostPowerDown a b s
  | .hostReleasePowerDown a b => Sys2Proof.Machine.execHostReleasePowerDown a b s
  | .hostWaitIdle a b => Sys2Proof.Machine.execHostWaitIdle a b s
  | .hostUnassigned0 a b => Sys2Proof.Machine.execHostUnassigned0 a b s
  | .hostUnassignedE a b => Sys2Proof.Machine.execHostUnassignedE a b s
  | .hostUnassignedF a b => Sys2Proof.Machine.execHostUnassignedF a b s

end Sys2Proof.Machine
end

