-- ==== Sys2Proof/Machine/BlockReset.lean ====
section
/-! DEFINITION. Block reset (spec/70_reset_and_hazards.md R250), an input that may arrive at any time. -/

namespace Sys2Proof.Machine

/-- The exchange outstanding when the block is reset gets no answer (R250); each exchange being atomic (R62), the chip
either carried it out or never saw it, which is a draw (log entry 9). -/
def State.abandonExchange (s : State) : State :=
  match s.bus with
  | none => s
  | some e =>
    if s.choice.ignored then s.consume
    else
      match decodeExchange e with
      | .ok i => { s.consume with chip := (Chip.react i s.choice (s.chip.settle s.choice)).1 }
      | .error _ => s.consume

/-- Block reset (R250): the control outputs are driven high, CTL_OK is sampled into the phase, the registers take the
values of R33, the request in progress is dropped without a response, and no exchange is issued. The chip is not reset;
the host's held offers stay offered (log entry 9). -/
def State.blockReset (ctlOk : Bool) (s : State) : State :=
  let s := s.abandonExchange
  { s with
    holdN := true, wpN := true
    phase := if ctlOk then .idle else .ctlFault
    op := .unassigned0, a := 0, b := 0, wbuf := [], cur := 0, pos := 0, chunk := 0, unit := 0, unitEnd := 0
    pollcnt := 0, vpos := 0, sr := 0, result := .ok, value := 0, rdata := [], payload := none
    bus := none }

end Sys2Proof.Machine
end

