-- ==== Sys2Proof/Machine/Fetch.lean ====
section
/-! DEFINITION. What the next step runs: the block-reset input, the outstanding exchange, or the next offered request
(spec/10_state.md R20, R21, R27), and how the host's word of the opcode table is placed there. -/

namespace Sys2Proof.Machine

/-- What the sequencer has to do next. -/
inductive Fetched where
  /-- no request is offered: the block waits (R250, R252) -/
  | wait
  /-- the instruction to run, on the state it runs in -/
  | run (i : Instr) (s : State)
  /-- what is offered or outstanding has no meaning -/
  | stop (r : Refusal)
  /-- a state no run reaches -/
  | stuck (f : Fault)
deriving DecidableEq, Repr

/-- The block-reset input of this step, with the rest of the input (R25, R250): none when no reset arrives. -/
def State.takeResetInput (s : State) : Option Bool × State :=
  match s.resetIn with
  | [] => (none, s)
  | .run :: rest => (none, { s with resetIn := rest })
  | .reset ctlOk :: rest => (some ctlOk, { s with resetIn := rest })

/-- The port accepts a request only in these phases (R21). -/
def Phase.accepts : Phase → Bool
  | .idle => true
  | .ctlFault => true
  | .sWe | .sWeRs | .sPp | .sSe | .sBe32 | .sBe64 | .sCe | .sPoll | .sVfy | .sRd | .sId | .sRstEn | .sRst | .sPd
  | .sRpd => false

/-- The next offered request leaves the port as it is accepted (R21). -/
def State.fetchRequest (s : State) : Fetched :=
  match s.offers with
  | [] => .wait
  | r :: rest =>
    match decodeRequest r with
    | .ok i => .run i { s with offers := rest }
    | .error e => .stop (.notARequest e)

/-- The outstanding exchange (R27). -/
def State.fetchExchange (s : State) : Fetched :=
  match s.bus with
  | none => .stuck .noExchangeOutstanding
  | some e =>
    match decodeExchange e with
    | .ok i => .run i s
    | .error e => .stop (.notAnExchange e)

/-- What the sequencer has to do next: while the phase is a site its exchange is outstanding (R27), else the port accepts
the next request (R21). -/
def State.fetch (s : State) : Fetched :=
  if s.phase.accepts then s.fetchRequest else s.fetchExchange

/-- The site at which the block has an exchange of this opcode outstanding, and a request that reaches it (R27). -/
def Opcode.siteOf : Opcode → Phase × HostOp
  | .pageProgram => (.sPp, .write)
  | .readData => (.sRd, .read)
  | .readStatusRegister1 => (.sPoll, .waitIdle)
  | .writeEnable => (.sWe, .eraseSector)
  | .sectorErase => (.sSe, .eraseSector)
  | .blockErase32K => (.sBe32, .eraseBlock32K)
  | .uniqueId => (.sId, .deviceId)
  | .blockErase64K => (.sBe64, .eraseBlock64K)
  | .chipErase => (.sCe, .eraseChip)
  | .enableReset => (.sRstEn, .reset)
  | .reset => (.sRst, .reset)
  | .powerDown => (.sPd, .powerDown)
  | .releasePowerDown => (.sRpd, .releasePowerDown)

/-- The exchange is outstanding at the site of its opcode, and no reset input waits; bytes that are no command are
outstanding at S_POLL, where the fetch refuses them (log entry 24). -/
def State.placeExchange (e : Exchange) (s : State) : State :=
  let at_ := match e.tx with
    | [] => (Phase.sPoll, HostOp.waitIdle)
    | b :: _ =>
      match Opcode.ofByte b with
      | none => (Phase.sPoll, HostOp.waitIdle)
      | some o => Opcode.siteOf o
  { s with phase := at_.1, op := at_.2, bus := some e, resetIn := [] }

/-- The request is the next one offered to a block in IDLE with nothing outstanding, and no reset input waits. -/
def State.placeRequest (r : HostRequest) (s : State) : State :=
  { s with phase := .idle, bus := none, offers := r :: s.offers, resetIn := [] }

/-- The instruction of the table's word where the next step fetches it (log entry 24). -/
def State.placeWord (s : State) (nbits w : Nat) : State :=
  match tableEncoded nbits w with
  | .exchange e => s.placeExchange e
  | .request r => s.placeRequest r

end Sys2Proof.Machine
end

