-- ==== Sys2Proof/Machine/Step.lean ====
section
/-! DEFINITION. One step of the machine: the block-reset input first, then what the fetch finds. -/

namespace Sys2Proof.Machine

/-- One step (R20, R27): a block reset if the input asks for one (R250), else the instruction the fetch finds, else
waiting for a request. -/
def step (s : State) : Host.Outcome State Fault Refusal :=
  match s.takeResetInput with
  | (some ctlOk, s) => .next (s.blockReset ctlOk)
  | (none, s) =>
    match s.fetch with
    | .wait => .next s
    | .run i s => exec i s
    | .stop r => .refused r
    | .stuck f => .fault f

/-- The state whose next step fetches and runs the table's word w of nbits bits (log entry 24). -/
def State.withFetchWord (s : State) (nbits w : Nat) : State := s.placeWord nbits w

end Sys2Proof.Machine
end

