-- ==== Sys2Proof/Safety.lean ====
section
/-! DEFINITION. What counts as a safe run: the invariant of the sequencer and of the memory, which command the sequencer
has outstanding, and the end of a run, in the terms the statements use. -/

namespace Sys2Proof

/-- The op of a host request; none for a wire command (R100). -/
def Instr.hostOp : Instr → Option HostOp
  | .hostRead _ _ => some .read
  | .hostWrite _ _ => some .write
  | .hostErase _ _ => some .erase
  | .hostDeviceId _ _ => some .deviceId
  | .hostReset _ _ => some .reset
  | .hostCapacity _ _ => some .capacity
  | .hostEraseSector _ _ => some .eraseSector
  | .hostEraseBlock32K _ _ => some .eraseBlock32K
  | .hostEraseBlock64K _ _ => some .eraseBlock64K
  | .hostEraseChip _ _ => some .eraseChip
  | .hostPowerDown _ _ => some .powerDown
  | .hostReleasePowerDown _ _ => some .releasePowerDown
  | .hostWaitIdle _ _ => some .waitIdle
  | .hostUnassigned0 _ _ => some .unassigned0
  | .hostUnassignedE _ _ => some .unassignedE
  | .hostUnassignedF _ _ => some .unassignedF
  | .pageProgram _ _ | .readData _ _ | .readStatusRegister1 | .writeEnable | .sectorErase _ | .blockErase32K _
  | .uniqueId | .blockErase64K _ | .chipErase | .enableReset | .reset | .powerDown | .releasePowerDown => none

end Sys2Proof

namespace Sys2Proof.Machine

open Config

/-- Both control outputs are high (R24). -/
abbrev State.LinesHigh (s : State) : Prop := s.holdN = true ∧ s.wpN = true

/-- The bus port holds the exchange of the phase, built from the registers, and none outside a site (R23, R27). -/
abbrev State.BusMatchesPhase (s : State) : Prop := s.bus = s.siteExchange

/-- The request in progress is one whose procedure has the phase's site (R27, R28). -/
abbrev State.SiteServesOp (s : State) : Prop := s.phase.accepts = false → s.phase.serves s.op = true

/-- While a WRITE runs: cur is the offset plus the bytes done, the payload ends inside the array, and the chunk reaches
to the end of its page or of the payload (R161). -/
abbrev State.WriteRegs (s : State) : Prop :=
  s.phase.accepts = false → s.op = .write →
    s.cur.toNat = s.a.toNat + s.pos.toNat ∧ s.a.toNat + s.wbuf.length ≤ capacity ∧ s.pos.toNat ≤ s.wbuf.length ∧
      s.chunk.toNat = min (pageSize - s.cur.toNat % pageSize) (s.wbuf.length - s.pos.toNat)

/-- While an ERASE runs, the unit in progress is one of the range's sectors (R185). -/
abbrev State.EraseRegs (s : State) : Prop :=
  s.phase.accepts = false → s.op = .erase → s.unit.toNat < s.unitEnd.toNat ∧ s.unitEnd.toNat ≤ nSectors

/-- While a per-unit erase runs, its index is below the unit count (R181 to R183). -/
abbrev State.UnitRegs (s : State) : Prop :=
  s.phase.accepts = false →
    (s.op = .eraseSector → s.a.toNat < nSectors) ∧ (s.op = .eraseBlock32K → s.a.toNat < nBlocks32K) ∧
      (s.op = .eraseBlock64K → s.a.toNat < nBlocks64K)

/-- While a READ's exchange is outstanding, its range ends inside the array (R160). -/
abbrev State.ReadRegs (s : State) : Prop := s.phase = .sRd → s.a.toNat + s.b.toNat ≤ capacity

/-- While a readback's exchange is outstanding, bytes are left to verify (R146). -/
abbrev State.VerifyRegs (s : State) : Prop := s.phase = .sVfy → s.vpos.toNat < s.verifyLength

/-- While a request is in progress its response is awaited (R262). -/
abbrev State.AwaitsResponse (s : State) : Prop := s.phase.accepts = false → s.awaiting = true

/-- The invariant every step keeps. -/
structure State.Inv (s : State) : Prop where
  lines  : s.LinesHigh
  bus    : s.BusMatchesPhase
  site   : s.SiteServesOp
  write  : s.WriteRegs
  erase  : s.EraseRegs
  unit   : s.UnitRegs
  read   : s.ReadRegs
  verify : s.VerifyRegs
  memory : Memory.wf s.chip.arr
  awaits : s.AwaitsResponse

/-- The readback of the step in progress, where it starts and how many bytes it covers: the chunk of a WRITE (R162), the
whole unit of an erase (R180); none for a request that has no readback. -/
def State.readbackSpan (s : State) : Option (Nat × Nat) :=
  match s.op with
  | .write => some (s.cur.toNat, s.chunk.toNat)
  | .erase => some (s.unit.toNat * 4096, 4096)
  | .eraseSector => some (s.a.toNat * 4096, 4096)
  | .eraseBlock32K => some (s.a.toNat * 32768, 32768)
  | .eraseBlock64K => some (s.a.toNat * 65536, 65536)
  | .eraseChip => some (0, 4194304)
  | .unassigned0 | .read | .deviceId | .reset | .capacity | .powerDown | .releasePowerDown | .waitIdle | .unassignedE
  | .unassignedF => none

/-- The wire command i is the one the sequencer has outstanding: the phase is a site of its opcode, the request in
progress reaches that site, and the operands are in the ranges of R121 to R133. -/
def State.outstanding (s : State) (i : Instr) : Bool :=
  i.wf &&
    match i with
    | .pageProgram _ _ => s.atSite .sPp
    | .readData _ _ => s.atSite .sRd || s.atSite .sVfy
    | .readStatusRegister1 => s.atSite .sWeRs || s.atSite .sPoll
    | .writeEnable => s.atSite .sWe
    | .sectorErase _ => s.atSite .sSe
    | .blockErase32K _ => s.atSite .sBe32
    | .uniqueId => s.atSite .sId
    | .blockErase64K _ => s.atSite .sBe64
    | .chipErase => s.atSite .sCe
    | .enableReset => s.atSite .sRstEn
    | .reset => s.atSite .sRst
    | .powerDown => s.atSite .sPd
    | .releasePowerDown => s.atSite .sRpd
    | .hostRead _ _ | .hostWrite _ _ | .hostErase _ _ | .hostDeviceId _ _ | .hostReset _ _ | .hostCapacity _ _
    | .hostEraseSector _ _ | .hostEraseBlock32K _ _ | .hostEraseBlock64K _ _ | .hostEraseChip _ _
    | .hostPowerDown _ _ | .hostReleasePowerDown _ _ | .hostWaitIdle _ _ | .hostUnassigned0 _ _
    | .hostUnassignedE _ _ | .hostUnassignedF _ _ => false

/-- The site of an erase command, and the first byte and the size of the unit it erases (R125 to R129, R75); none for
every other instruction. -/
def eraseRange : Instr → Option (Phase × Nat × Nat)
  | .sectorErase x => some (.sSe, x.toNat / sectorSize * sectorSize, sectorSize)
  | .blockErase32K x => some (.sBe32, x.toNat / block32KSize * block32KSize, block32KSize)
  | .blockErase64K x => some (.sBe64, x.toNat / block64KSize * block64KSize, block64KSize)
  | .chipErase => some (.sCe, 0, capacity)
  | .pageProgram _ _ | .readData _ _ | .readStatusRegister1 | .writeEnable | .uniqueId | .enableReset | .reset
  | .powerDown | .releasePowerDown | .hostRead _ _ | .hostWrite _ _ | .hostErase _ _ | .hostDeviceId _ _
  | .hostReset _ _ | .hostCapacity _ _ | .hostEraseSector _ _ | .hostEraseBlock32K _ _ | .hostEraseBlock64K _ _
  | .hostEraseChip _ _ | .hostPowerDown _ _ | .hostReleasePowerDown _ _ | .hostWaitIdle _ _ | .hostUnassigned0 _ _
  | .hostUnassignedE _ _ | .hostUnassignedF _ _ => none

/-- The site of a program or erase command (R27). -/
def Phase.isCommand : Phase → Bool
  | .sPp | .sSe | .sBe32 | .sBe64 | .sCe => true
  | .idle | .ctlFault | .sWe | .sWeRs | .sPoll | .sVfy | .sRd | .sId | .sRstEn | .sRst | .sPd | .sRpd => false

/-- The chip as it is when the coming exchange reaches it: what it was doing may have completed (R76). -/
def State.chipNow (s : State) : Chip := s.chip.settle s.choice

/-- No block reset arrives at this step (R250). -/
abbrev State.noReset (s : State) : Prop := ∀ ok, s.resetIn.head? ≠ some (.reset ok)

/-- The state whose reset input of this step is taken. -/
def State.dropResetInput (s : State) : State := { s with resetIn := s.resetIn.tail }

/-- The state after the response r of a request accepted in IDLE: the response registers hold it, it is delivered, the
phase is IDLE, no exchange is outstanding, the WRITE payload is gone and no response is awaited (R22, R27, R32, R262). -/
def State.answered (r : Response) (s : State) : State :=
  { s with
    result := r.result, value := r.value, rdata := r.rdata, payload := r.payload
    phase := .idle, bus := none, wbuf := [], responses := s.responses ++ [r], awaiting := false }

/-- The state after the outstanding exchange was answered Err p: the request is answered TransportError with p (R221),
and nothing is known of the chip (R80). -/
def State.failed (p : Payload) (s : State) : State :=
  { s.consume with chip := s.chip.scramble s.choice }.answered ⟨.transportError, 0, [], some p⟩

/-- The values of R33 after a block reset that sampled CTL_OK. -/
abbrev State.ResetValues (ctlOk : Bool) (t : State) : Prop :=
  t.holdN = true ∧ t.wpN = true ∧ t.phase = (if ctlOk then .idle else .ctlFault) ∧
    t.op.code = 0 ∧ t.a = 0 ∧ t.b = 0 ∧ t.cur = 0 ∧ t.pos = 0 ∧ t.chunk = 0 ∧ t.unit = 0 ∧ t.unitEnd = 0 ∧
    t.pollcnt = 0 ∧ t.vpos = 0 ∧ t.sr = 0 ∧ t.value = 0 ∧ t.wbuf = [] ∧ t.rdata = [] ∧ t.result.code = 0 ∧
    t.payload = none ∧ t.bus = none

/-- A run has ended: the phase is IDLE or CTLFAULT, and the host has received the response of its last request: none is
offered still, and the last one accepted was answered, not dropped by a block reset (R262; log entry 28). -/
def State.runEnded (s : State) : Bool := s.phase.accepts && s.offers.isEmpty && !s.awaiting

end Sys2Proof.Machine
end

