-- ==== Sys2Proof/Certificates/Slice0/Obligations.lean ====
section
/-! DEFINITION. The statements for the provers, each formalising rules of spec/. In them `s.choice` is what the environment
chooses at the coming exchange (free: nothing is known of it), `s.consume` the state with that choice used up, `s.chipNow`
the chip as the exchange finds it (R76: what it was doing may have completed), `s.issue L e` the state with exchange e
presented at site L (R140), `s.answered r` the state after the response r (R22, R227), in which wbuf is empty too (R32; log
entry 21). That op, a and b are latched at acceptance is log entry 22; a request accepted and not yet answered has
`awaiting := true`, the model's bit for R262 (log entry 28). -/

open Sys2Proof Sys2Proof.Machine

/-! ### Encoding -/

/-- Decoding the encoding of a well-formed instruction gives the instruction, with every operand at every value its
encoding admits (30_encoding.md R90 to R94, R100 to R102). -/
def Obligations.DecodeInvertsEncode : Prop :=
  ∀ i : Instr, i.WellFormed → decode (encode i) = .ok i

/-- What the decoder accepts has one encoding: encoding the instruction it reads gives back the exchange or the request
(30_encoding.md R90 to R94, R100 to R102). -/
def Obligations.EncodeInvertsDecode : Prop :=
  ∀ (x : Encoded) (i : Instr), decode x = .ok i → encode i = x

/-- Words written out from the spec's examples decode to what they stand for (R121, R122, R123, R125 to R129, R160, R161,
R185, R181; 95_test_vectors.md L1.4, L2.1). -/
def Obligations.WordsOfTheSpecDecode : Prop :=
  decode (.exchange ⟨.w, [0x02, 0x00, 0x01, 0x64, 0xAA, 0x55], 0⟩) = .ok (.pageProgram 0x000164 [0xAA, 0x55]) ∧
  decode (.exchange ⟨.wr, [0x03, 0x3F, 0xFF, 0xFF], 1⟩) = .ok (.readData 0x3FFFFF 1) ∧
  decode (.exchange ⟨.x, [0x05, 0x00], 2⟩) = .ok .readStatusRegister1 ∧
  decode (.exchange ⟨.w, [0x20, 0x00, 0x50, 0x00], 0⟩) = .ok (.sectorErase 0x005000) ∧
  decode (.exchange ⟨.w, [0x52, 0x00, 0x80, 0x00], 0⟩) = .ok (.blockErase32K 0x008000) ∧
  decode (.exchange ⟨.w, [0xD8, 0x02, 0x00, 0x00], 0⟩) = .ok (.blockErase64K 0x020000) ∧
  decode (.exchange ⟨.w, [0xC7], 0⟩) = .ok .chipErase ∧
  decode (.request ⟨0x00000001, 0x003FFFFE, 0x00000002, []⟩) = .ok (.hostRead 0x3FFFFE 2) ∧
  decode (.request ⟨0x00000002, 0x00000000, 0x00000001, [0x5A]⟩) = .ok (.hostWrite 0 [0x5A]) ∧
  decode (.request ⟨0x00000003, 0x00001000, 0x00003000, []⟩) = .ok (.hostErase 0x1000 0x3000) ∧
  decode (.request ⟨0x00000007, 0x00000000, 0x00000000, []⟩) = .ok (.hostEraseSector 0 0)

/-- R134: thirteen opcodes, each with its byte of R91, and a partial inverse that 243 byte values do not have. -/
def Obligations.OpcodeMapIsClosed : Prop :=
  (∀ (b : Byte) (o : Opcode), Opcode.ofByte b = some o ↔ o.byte = b) ∧
  (∀ o : Opcode, o ∈ Opcode.all) ∧
  Opcode.all.map Opcode.byte = [0x02, 0x03, 0x05, 0x06, 0x20, 0x52, 0x4B, 0xD8, 0xC7, 0x66, 0x99, 0xB9, 0xAB] ∧
  ((List.range 256).filter (fun k => (Opcode.ofByte (BitVec.ofNat 8 k)).isNone)).length = 243

/-- R54: the address of every address-bearing command goes most-significant byte first, PageProgram's included. -/
def Obligations.AddressGoesMostSignificantFirst : Prop :=
  ∀ (x : Word) (d : List Byte) (n : Nat),
    let bytes : List Byte := [x.extractLsb' 16 8, x.extractLsb' 8 8, x.extractLsb' 0 8]
    (Exchange.pageProgram (wireAddr x.toNat) d).tx = 0x02 :: bytes ++ d ∧
    (Exchange.readData (wireAddr x.toNat) n).tx = 0x03 :: bytes ∧
    (Exchange.sectorErase (wireAddr x.toNat)).tx = 0x20 :: bytes ∧
    (Exchange.blockErase32K (wireAddr x.toNat)).tx = 0x52 :: bytes ∧
    (Exchange.blockErase64K (wireAddr x.toNat)).tx = 0xD8 :: bytes

/-! ### The step -/

/-- When no block reset arrives, a step runs exactly the instruction that the offered request, or the outstanding
exchange, decodes to; around it the step only takes the reset input and takes the accepted request off the port (R21,
R27). -/
def Obligations.StepRunsTheDecodedInstruction : Prop :=
  (∀ (s : State) (r : HostRequest) (rest : List HostRequest) (i : Instr), s.noReset → s.phase.accepts = true →
    s.offers = r :: rest → decodeRequest r = .ok i → step s = exec i { s.dropResetInput with offers := rest }) ∧
  (∀ (s : State) (e : Exchange) (i : Instr), s.noReset → s.phase.accepts = false → s.bus = some e →
    decodeExchange e = .ok i → step s = exec i s.dropResetInput)

/-- A block that accepts requests and is offered none waits: a step changes nothing but the reset input (R250: "after
reset the block waits for a request"). -/
def Obligations.StepWaitsForARequest : Prop :=
  ∀ s : State, s.noReset → s.phase.accepts = true → s.offers = [] → step s = .next s.dropResetInput

/-- An offer that breaks the record shape of R21 or R102 is no request: the step refuses it. -/
def Obligations.StepRefusesWhatIsNoRequest : Prop :=
  ∀ (s : State) (r : HostRequest) (rest : List HostRequest), s.noReset → s.phase.accepts = true →
    s.offers = r :: rest →
    (r.w0.extractLsb' 4 28 ≠ 0#28 → ∃ e, step s = .refused (.notARequest e)) ∧
    (r.w0 = 2 → r.data.length ≠ r.w2.toNat → ∃ e, step s = .refused (.notARequest e)) ∧
    (r.w0 ≠ 2 → r.data ≠ [] → ∃ e, step s = .refused (.notARequest e))

/-- R33: what every register, both control outputs and the bus port hold after a block reset, from any state; it issues no
exchange, and with none outstanding the chip is not touched. -/
def Obligations.BlockResetLeavesTheStatedValues : Prop :=
  ∀ (s : State) (ok : Bool), ∃ t, step { s with resetIn := .reset ok :: s.resetIn } = .next t ∧
    t.ResetValues ok ∧ t.trace = s.trace ∧ (s.bus = none → t.chip = s.chip)

/-- The machine after reset has the values of R33 for CTL_OK true, which is the model's choice of the two (log entry 2);
its chip, parameters and inputs are the model's too (log entries 1, 4 to 10) and nothing is stated of them. -/
def Obligations.ResetStateHasTheResetValues : Prop := State.reset.ResetValues true

/-- A block reset drops the request without a response and issues no exchange, and it does not touch the chip: with no
exchange outstanding the chip is as it was (R250). The response of a request dropped so is awaited still, so that the run has
not ended (R262; log entry 28). The model's choices, log entry 9: the host's offers stay offered, the build parameters stay
(R31 lets no request write them), and an exchange that was outstanding was never seen by the chip, or carried out. -/
def Obligations.BlockResetDropsTheRequest : Prop :=
  ∀ (s : State) (ok : Bool), ∃ t, step { s with resetIn := .reset ok :: s.resetIn } = .next t ∧
    t.responses = s.responses ∧ t.trace = s.trace ∧ t.awaiting = s.awaiting ∧
    (s.awaiting = true → t.runEnded = false) ∧ t.offers = s.offers ∧ t.params = s.params ∧
    (s.bus = none → t.chip = s.chip) ∧
    (∀ e i, s.bus = some e → decodeExchange e = .ok i →
      t.chip = s.chip ∨ t.chip = (Chip.react i s.choice s.chipNow).1)

/-! ### Request errors and entry checks -/

/-- R227: raise writes result, value, rdata and payload, delivers the response, and makes the phase IDLE or leaves it
CTLFAULT; no exchange is issued, and no other register is saved or restored. What becomes of wbuf
(log entry 21) is not said here. -/
def Obligations.RaiseDeliversTheError : Prop :=
  ∀ (e : ReqError) (s : State),
    let t := s.raise e
    let p : Option Payload := match e with | .transportError p => some p | _ => none
    t.result = e.result ∧ t.value = 0 ∧ t.rdata = [] ∧ t.payload = p ∧
    t.responses = s.responses ++ [⟨e.result, 0, [], p⟩] ∧
    t.phase = (if s.phase = .ctlFault then .ctlFault else .idle) ∧ t.bus = none ∧ t.trace = s.trace ∧
    t.op = s.op ∧ t.a = s.a ∧ t.b = s.b ∧ t.cur = s.cur ∧ t.pos = s.pos ∧ t.chunk = s.chunk ∧ t.unit = s.unit ∧
    t.unitEnd = s.unitEnd ∧ t.pollcnt = s.pollcnt ∧ t.vpos = s.vpos ∧ t.sr = s.sr ∧ t.chip = s.chip

/-- R220: the numbers of the result codes, each error its own. -/
def Obligations.ResultCodesAreNumbered : Prop :=
  ∀ p : Payload,
    ResultCode.ok.code = 0 ∧ (ReqError.transportError p).result.code = 1 ∧
    ReqError.controlLineError.result.code = 2 ∧ ReqError.notAligned.result.code = 3 ∧
    ReqError.outOfBounds.result.code = 4 ∧ ReqError.writeEnableFail.result.code = 5 ∧
    ReqError.readbackFail.result.code = 6 ∧ ReqError.timeout.result.code = 7 ∧
    ReqError.unsupported.result.code = 8 ∧ ∀ r : ResultCode, r.code.toNat ≤ 8

/-- R222: in CTLFAULT every request, whatever its op, is answered ControlLineError, issues no exchange and leaves the
phase CTLFAULT; CTLFAULT comes from a block reset with CTL_OK false, and only one with CTL_OK true leaves it. -/
def Obligations.CtlFaultAnswersEveryRequest : Prop :=
  (∀ (i : Instr) (op : HostOp) (s : State), i.hostOp = some op → i.WellFormed → s.phase = .ctlFault →
    ∃ t, exec i s = .next t ∧ t.phase = .ctlFault ∧
      t.responses = s.responses ++ [⟨.controlLineError, 0, [], none⟩] ∧ t.trace = s.trace ∧ t.bus = none ∧
      t.chip = s.chip) ∧
  (∀ (s : State) (ok : Bool), (s.blockReset ok).phase = if ok then .idle else .ctlFault) ∧
  (∀ s t : State, s.phase = .ctlFault → step s = .next t →
    t.phase = .ctlFault ∨ s.resetIn.head? = some (.reset true))

/-- A request offered while another is in progress is held: its meaning changes nothing, and a step takes nothing off the
port (R21). -/
def Obligations.PortHoldsARequestWhileBusy : Prop :=
  (∀ (i : Instr) (op : HostOp) (s : State), i.hostOp = some op → i.WellFormed → s.phase.accepts = false →
    exec i s = .next s) ∧
  (∀ s t : State, s.noReset → s.phase.accepts = false → step s = .next t → t.offers = s.offers)

/-- R221: at every site, an exchange answered Err ends its request at once with TransportError, which carries the payload;
no other exchange is issued, and of the registers of R26 only those of the response, phase and wbuf change. That wbuf is
emptied with the response is the model's reading of R32 (log entry 21). Of the chip nothing is said (R80). -/
def Obligations.TransportErrorEndsTheRequest : Prop :=
  ∀ (i : Instr) (s : State) (p : Payload), s.outstanding i = true → s.choice.err = some p →
    ∃ ch, exec i s = .next ({ s.consume with chip := ch }.answered ⟨.transportError, 0, [], some p⟩)

/-! ### Host requests that need no bus, or one plain exchange -/

/-- R202: CAPACITY answers 4194304 and issues no exchange. That op, a and b are latched, and wbuf emptied, is the model's
bookkeeping (log entries 21 and 22). -/
def Obligations.CapacityAnswersTheCapacity : Prop :=
  ∀ (a b : Word) (s : State), s.phase = .idle →
    exec (.hostCapacity a b) s =
      .next ({ s with op := .capacity, a := a, b := b }.answered ⟨.ok, 4194304, [], none⟩)

/-- R206: an unassigned op is answered Unsupported, whatever its operands, with no exchange. That op, a and b are latched,
and wbuf emptied, is the model's bookkeeping (log entries 21 and 22). -/
def Obligations.UnassignedOpsAreUnsupported : Prop :=
  ∀ (a b : Word) (s : State), s.phase = .idle →
    exec (.hostUnassigned0 a b) s =
      .next ({ s with op := .unassigned0, a := a, b := b }.answered ⟨.unsupported, 0, [], none⟩) ∧
    exec (.hostUnassignedE a b) s =
      .next ({ s with op := .unassignedE, a := a, b := b }.answered ⟨.unsupported, 0, [], none⟩) ∧
    exec (.hostUnassignedF a b) s =
      .next ({ s with op := .unassignedF, a := a, b := b }.answered ⟨.unsupported, 0, [], none⟩)

/-- R201: RESET sends EnableReset, and after its Ok answer Reset as an exchange of its own, then answers OK; an Err answer
to either ends it with TransportError, so that after the first Reset is not sent. Of the chip's state nothing is said. That
op, a, b and the bit awaiting are written at acceptance, and wbuf and the bit at the response, is the model's bookkeeping
(log entries 21, 22 and 28). -/
def Obligations.ResetIsTwoExchanges : Prop :=
  (∀ (a b : Word) (s : State), s.phase = .idle →
    exec (.hostReset a b) s =
      .next ({ s with op := .reset, a := a, b := b, awaiting := true }.issue .sRstEn ⟨.w, [0x66], 0⟩)) ∧
  (∀ s : State, s.phase = .sRstEn → s.op = .reset → s.choice.err = none →
    ∃ ch, exec .enableReset s = .next ({ s.consume with chip := ch }.issue .sRst ⟨.w, [0x99], 0⟩)) ∧
  (∀ s : State, s.phase = .sRst → s.op = .reset → s.choice.err = none →
    ∃ ch, exec .reset s = .next ({ s.consume with chip := ch }.answered ⟨.ok, 0, [], none⟩)) ∧
  (∀ (s : State) (p : Payload), s.op = .reset → s.choice.err = some p →
    (s.phase = .sRstEn →
      ∃ ch, exec .enableReset s = .next ({ s.consume with chip := ch }.answered ⟨.transportError, 0, [], some p⟩)) ∧
    (s.phase = .sRst →
      ∃ ch, exec .reset s = .next ({ s.consume with chip := ch }.answered ⟨.transportError, 0, [], some p⟩)))

/-- R203: POWER_DOWN sends PowerDown and answers OK; a busy chip ignores it (R73), any other is then powered down, one that
was so before too (the model's reading of R79, log entry 18). That the rest of the chip's state is then any is the model's
reading of R240 (log entry 18), not stated here. -/
def Obligations.PowerDownIsOneExchange : Prop :=
  (∀ (a b : Word) (s : State), s.phase = .idle →
    exec (.hostPowerDown a b) s =
      .next ({ s with op := .powerDown, a := a, b := b, awaiting := true }.issue .sPd ⟨.w, [0xB9], 0⟩)) ∧
  (∀ s : State, s.phase = .sPd → s.op = .powerDown → s.choice.err = none →
    ∃ ch, exec .powerDown s = .next ({ s.consume with chip := ch }.answered ⟨.ok, 0, [], none⟩) ∧
      (s.chipNow.busy = true → ch = s.chipNow) ∧
      (s.chipNow.busy = false → ch.poweredDown = true ∧ ch.uid = s.chip.uid)) ∧
  (∀ (s : State) (p : Payload), s.phase = .sPd → s.op = .powerDown → s.choice.err = some p →
    exec .powerDown s = .next (s.failed p))

/-- R204: RELEASE_POWER_DOWN sends ReleasePowerDown, receives nothing and answers OK; a chip that is not busy is then not
powered down, the rest of it as it was (log entry 19). -/
def Obligations.ReleasePowerDownIsOneExchange : Prop :=
  (∀ (a b : Word) (s : State), s.phase = .idle →
    exec (.hostReleasePowerDown a b) s =
      .next ({ s with op := .releasePowerDown, a := a, b := b, awaiting := true }.issue .sRpd ⟨.w, [0xAB], 0⟩)) ∧
  (∀ s : State, s.phase = .sRpd → s.op = .releasePowerDown → s.choice.err = none →
    exec .releasePowerDown s =
      .next ({ s.consume with
          chip := if s.chipNow.busy then s.chipNow else { s.chipNow with poweredDown := false } }.answered
        ⟨.ok, 0, [], none⟩)) ∧
  (∀ (s : State) (p : Payload), s.phase = .sRpd → s.op = .releasePowerDown → s.choice.err = some p →
    exec .releasePowerDown s = .next (s.failed p))

/-- R200: DEVICE_ID is one 13-byte transfer whose first byte is 0x4B; the answer is bytes 5 to 12 received, eight bytes,
which are the chip's identifier when it is neither busy nor powered down (R78); the chip does not
change (log entry 15). -/
def Obligations.DeviceIdReturnsTheLastEightBytes : Prop :=
  (∀ (a b : Word) (s : State), s.phase = .idle →
    exec (.hostDeviceId a b) s =
      .next ({ s with op := .deviceId, a := a, b := b, awaiting := true }.issue
        .sId ⟨.x, 0x4B :: List.replicate 12 0x00, 13⟩)) ∧
  (∀ s : State, s.phase = .sId → s.op = .deviceId → s.choice.err = none →
    ∃ rx : List Byte, rx.length = 13 ∧
      exec .uniqueId s =
        .next ({ s.consume with chip := s.chipNow }.answered ⟨.ok, 0, (rx.drop 5).take 8, none⟩) ∧
      (s.chipNow.busy = false → s.chipNow.poweredDown = false → (rx.drop 5).take 8 = s.chip.uid.toList)) ∧
  (∀ (s : State) (p : Payload), s.phase = .sId → s.op = .deviceId → s.choice.err = some p →
    exec .uniqueId s = .next (s.failed p))

/-- R160: READ is refused OutOfBounds exactly when its range goes past CAPACITY, with no exchange; else it is one ReadData
exchange, whose n bytes are the answer. From a chip that is neither busy nor powered down they are the array's bytes
(R77); the chip does not change (log entry 15). -/
def Obligations.ReadIsOneExchange : Prop :=
  (∀ (a n : Word) (s : State), s.phase = .idle →
    exec (.hostRead a n) s =
      if a.toNat + n.toNat ≤ 4194304 then
        .next ({ s with op := .read, a := a, b := n, awaiting := true }.issue .sRd
          ⟨.wr, [0x03, a.extractLsb' 16 8, a.extractLsb' 8 8, a.extractLsb' 0 8], n.toNat⟩)
      else .next ({ s with op := .read, a := a, b := n, awaiting := true }.answered ⟨.outOfBounds, 0, [], none⟩)) ∧
  (∀ (x : Addr) (n : Nat) (s : State), s.phase = .sRd → s.op = .read → x.toNat + n ≤ 4194304 →
    s.choice.err = none →
    ∃ rx : List Byte, rx.length = n ∧
      exec (.readData x n) s = .next ({ s.consume with chip := s.chipNow }.answered ⟨.ok, 0, rx, none⟩) ∧
      (s.chipNow.busy = false → s.chipNow.poweredDown = false →
        rx = (List.range n).map (fun i => Memory.read s.chipNow.arr (x.toNat + i)))) ∧
  (∀ (x : Addr) (n : Nat) (s : State) (p : Payload), s.phase = .sRd → s.op = .read → x.toNat + n ≤ 4194304 →
    s.choice.err = some p → exec (.readData x n) s = .next (s.failed p))

/-! ### WRITE and the erases: acceptance -/

/-- WRITE's bounds check and its first chunk (R161 steps 1 to 3): OutOfBounds past CAPACITY with no exchange; else the
first chunk reaches to the end of its page or of the data, and its write-enable gate begins, for no data too. -/
def Obligations.WriteStartsTheFirstChunk : Prop :=
  ∀ (a : Word) (data : List Byte) (s : State), s.phase = .idle → data.length < 2 ^ 32 →
    let u := { s with op := .write, a := a, b := BitVec.ofNat 32 data.length, awaiting := true }
    (4194304 < a.toNat + data.length →
      exec (.hostWrite a data) s = .next (u.answered ⟨.outOfBounds, 0, [], none⟩)) ∧
    (a.toNat + data.length ≤ 4194304 →
      ∃ c : BitVec 9, c.toNat = min (256 - a.toNat % 256) data.length ∧
        exec (.hostWrite a data) s =
          .next ({ u with wbuf := data, cur := a, pos := 0, chunk := c }.issue .sWe ⟨.w, [0x06], 0⟩))

/-- ERASE's checks in their order and its first sector (R185): NotAligned, then OutOfBounds for an inverted range, then
OutOfBounds past CAPACITY, all with no exchange; an empty range answers OK with no exchange; else the first sector's
write-enable gate begins. -/
def Obligations.EraseChecksThenStartsTheFirstSector : Prop :=
  ∀ (first last : Word) (s : State), s.phase = .idle →
    let u := { s with op := .erase, a := first, b := last, awaiting := true }
    exec (.hostErase first last) s =
      if first.toNat % 4096 ≠ 0 ∨ last.toNat % 4096 ≠ 0 then .next (u.answered ⟨.notAligned, 0, [], none⟩)
      else if last.toNat < first.toNat ∨ 4194304 < last.toNat then .next (u.answered ⟨.outOfBounds, 0, [], none⟩)
      else
        let v := { u with
          unit := BitVec.ofNat 11 (first.toNat / 4096), unitEnd := BitVec.ofNat 11 (last.toNat / 4096) }
        if first = last then .next (v.answered ⟨.ok, 0, [], none⟩) else .next (v.issue .sWe ⟨.w, [0x06], 0⟩)

/-- The per-unit erases check their index against the unit count, and the chip erase checks nothing, before the
write-enable gate begins (R181 to R184). -/
def Obligations.UnitErasesCheckTheIndex : Prop :=
  ∀ (a b : Word) (s : State), s.phase = .idle →
    exec (.hostEraseSector a b) s =
      (let u := { s with op := .eraseSector, a := a, b := b, awaiting := true }
       if a.toNat < 1024 then .next (u.issue .sWe ⟨.w, [0x06], 0⟩)
       else .next (u.answered ⟨.outOfBounds, 0, [], none⟩)) ∧
    exec (.hostEraseBlock32K a b) s =
      (let u := { s with op := .eraseBlock32K, a := a, b := b, awaiting := true }
       if a.toNat < 128 then .next (u.issue .sWe ⟨.w, [0x06], 0⟩)
       else .next (u.answered ⟨.outOfBounds, 0, [], none⟩)) ∧
    exec (.hostEraseBlock64K a b) s =
      (let u := { s with op := .eraseBlock64K, a := a, b := b, awaiting := true }
       if a.toNat < 64 then .next (u.issue .sWe ⟨.w, [0x06], 0⟩)
       else .next (u.answered ⟨.outOfBounds, 0, [], none⟩)) ∧
    exec (.hostEraseChip a b) s =
      .next ({ s with op := .eraseChip, a := a, b := b, awaiting := true }.issue .sWe ⟨.w, [0x06], 0⟩)

/-- WAIT_IDLE runs the completion poller alone: pollcnt is 0 and the first status read is issued (R205, R144). -/
def Obligations.WaitIdleStartsThePoll : Prop :=
  ∀ (a b : Word) (s : State), s.phase = .idle →
    exec (.hostWaitIdle a b) s =
      .next ({ s with op := .waitIdle, a := a, b := b, pollcnt := 0, awaiting := true }.issue
        .sPoll ⟨.x, [0x05, 0x00], 2⟩)

/-! ### The write-enable gate, the commands, the poll, the readback -/

/-- The program or erase command of each mutating request: its site, its frame and its address (R93, R121, R125, R126,
R128, R129). -/
def Obligations.CommandOfEachRequest : Prop :=
  ∀ s : State,
    (s.op = .write → s.command =
      some (.sPp, Exchange.pageProgram (wireAddr s.cur.toNat) ((s.wbuf.drop s.pos.toNat).take s.chunk.toNat))) ∧
    (s.op = .erase → s.command = some (.sSe, Exchange.sectorErase (wireAddr (s.unit.toNat * 4096)))) ∧
    (s.op = .eraseSector → s.command = some (.sSe, Exchange.sectorErase (wireAddr (s.a.toNat * 4096)))) ∧
    (s.op = .eraseBlock32K → s.command = some (.sBe32, Exchange.blockErase32K (wireAddr (s.a.toNat * 32768)))) ∧
    (s.op = .eraseBlock64K → s.command = some (.sBe64, Exchange.blockErase64K (wireAddr (s.a.toNat * 65536)))) ∧
    (s.op = .eraseChip → s.command = some (.sCe, Exchange.chipErase))

/-- WriteEnable answered Ok: a chip that is not busy sets its latch, a busy one ignores it (R72); then, with VERIFY_WE, the
status is read, without it the request's command is issued (R143). -/
def Obligations.WriteEnableSetsTheLatch : Prop :=
  ∀ s : State, s.phase = .sWe → s.op.mutates = true → s.choice.err = none →
    ∃ ch, (s.chipNow.busy = true → ch = s.chipNow) ∧
      (s.chipNow.busy = false → s.chipNow.poweredDown = false → ch = { s.chipNow with wel := true }) ∧
      (s.params.verifyWe = true →
        exec .writeEnable s = .next ({ s.consume with chip := ch }.issue .sWeRs ⟨.x, [0x05, 0x00], 2⟩)) ∧
      (s.params.verifyWe = false →
        ∃ L e, s.command = some (L, e) ∧ exec .writeEnable s = .next ({ s.consume with chip := ch }.issue L e))

/-- The gate's status read answered Ok (R143, R225): sr is the status byte; with WEL = 0 the request ends with
WriteEnableFail and the command is not sent; with WEL = 1 the command is issued, BUSY not being tested. The chip does not
change (log entry 15), and unless it is powered down the bit tested is its latch (R71). -/
def Obligations.GateTestsTheLatch : Prop :=
  ∀ s : State, s.phase = .sWeRs → s.op.mutates = true → s.choice.err = none →
    ∃ sr : Byte,
      (s.chipNow.poweredDown = false → sr.getLsbD 0 = s.chipNow.busy ∧ sr.getLsbD 1 = s.chipNow.wel) ∧
      (sr.getLsbD 1 = false →
        exec .readStatusRegister1 s =
          .next ({ s.consume with chip := s.chipNow, sr := sr }.answered ⟨.writeEnableFail, 0, [], none⟩)) ∧
      (sr.getLsbD 1 = true →
        ∃ L e, s.command = some (L, e) ∧
          exec .readStatusRegister1 s = .next ({ s.consume with chip := s.chipNow, sr := sr }.issue L e))

/-- PageProgram answered Ok (R121, R74): the poll begins with pollcnt 0; a busy chip and one without the latch ignore the
program of at least one byte; with the latch the chip is busy programming d at x. Whatever d is, nothing of the chip changes
but BUSY, WEL and what is in flight; with no data these three are open, with the latch and without it, unless the chip is
busy (R74, 93 I8; log entry 14), and nothing is said of them. -/
def Obligations.PageProgramStartsTheProgram : Prop :=
  ∀ (x : Addr) (d : List Byte) (s : State), s.phase = .sPp → s.op = .write → x.toNat % 256 + d.length ≤ 256 →
    x.toNat + d.length ≤ 4194304 → s.choice.err = none →
    ∃ ch, exec (.pageProgram x d) s =
        .next ({ s.consume with chip := ch, pollcnt := 0 }.issue .sPoll ⟨.x, [0x05, 0x00], 2⟩) ∧
      ch = { s.chipNow with busy := ch.busy, wel := ch.wel, inflight := ch.inflight } ∧
      (s.chipNow.busy = true → ch = s.chipNow) ∧
      (s.chipNow.busy = false → s.chipNow.wel = false → d ≠ [] → ch = s.chipNow) ∧
      (s.chipNow.busy = false → s.chipNow.poweredDown = false → s.chipNow.wel = true → d ≠ [] →
        ch = { s.chipNow with busy := true, inflight := some (.program x.toNat d) })

/-- SectorErase, BlockErase32K, BlockErase64K and ChipErase answered Ok (R75, R125, R126, R128, R129): the poll begins with
pollcnt 0; a busy chip and one without the latch ignore the erase; with the latch the chip is busy erasing the unit that
contains the address. -/
def Obligations.EraseCommandsStartTheErase : Prop :=
  ∀ (i : Instr) (L : Phase) (base size : Nat) (s : State), eraseRange i = some (L, base, size) → base < 4194304 →
    s.atSite L = true → s.choice.err = none →
    ∃ ch, exec i s = .next ({ s.consume with chip := ch, pollcnt := 0 }.issue .sPoll ⟨.x, [0x05, 0x00], 2⟩) ∧
      ch.arr = s.chipNow.arr ∧ ch.uid = s.chip.uid ∧
      (s.chipNow.busy = true → ch = s.chipNow) ∧
      (s.chipNow.busy = false → s.chipNow.wel = false → ch = s.chipNow) ∧
      (s.chipNow.busy = false → s.chipNow.poweredDown = false → s.chipNow.wel = true →
        ch = { s.chipNow with busy := true, inflight := some (.erase base size) })

/-- What the chip does with it is not in the source, and the block never sends it: a command whose bytes reach past CAPACITY,
an erase whose address is at or past it (R64), and a program past the end of its page (R58). I13 of
93_implementation_defined.md says 'refuse' of both; that the first two are a fault of the model and the third a refusal is the
model's choice (log entry 20). No bytes at CAPACITY are sent (R51) and do not stop. -/
def Obligations.CommandsOutsideTheArrayStop : Prop :=
  ∀ (x : Addr) (d : List Byte) (n : Nat) (s : State),
    (4194304 < x.toNat + n → exec (.readData x n) s = .fault .outsideArray) ∧
    (4194304 < x.toNat + d.length → exec (.pageProgram x d) s = .fault .outsideArray) ∧
    (x.toNat + d.length ≤ 4194304 → 256 < x.toNat % 256 + d.length →
      exec (.pageProgram x d) s = .refused .pastPageEnd) ∧
    (4194304 ≤ x.toNat →
      exec (.sectorErase x) s = .fault .outsideArray ∧ exec (.blockErase32K x) s = .fault .outsideArray ∧
      exec (.blockErase64K x) s = .fault .outsideArray)

/-- A poll read answered Ok (R144): sr and pollcnt are written; BUSY = 0 ends the poll, whatever the limit and WEL; BUSY = 1
with the budget used up is Timeout; else the next status read is issued, for ever when there is no budget (R242). The chip
does not change (log entry 15), and unless it is powered down the bit tested is its BUSY (R71). -/
def Obligations.PollTestsBusyThenTheLimit : Prop :=
  ∀ s : State, s.phase = .sPoll → (s.op.mutates = true ∨ s.op = .waitIdle) → s.choice.err = none →
    ∃ sr : Byte,
      let u := { s.consume with chip := s.chipNow, sr := sr, pollcnt := s.pollcnt + 1 }
      let again := u.issue .sPoll ⟨.x, [0x05, 0x00], 2⟩
      (s.chipNow.poweredDown = false → sr.getLsbD 0 = s.chipNow.busy) ∧
      (sr.getLsbD 0 = false → exec .readStatusRegister1 s = .next u.afterReady) ∧
      (sr.getLsbD 0 = true → ∀ l, s.params.pollLimit.limit s.op.pollKind = some l →
        (l ≤ s.pollcnt + 1 → exec .readStatusRegister1 s = .next (u.answered ⟨.timeout, 0, [], none⟩)) ∧
        (s.pollcnt + 1 < l → exec .readStatusRegister1 s = .next again)) ∧
      (sr.getLsbD 0 = true → s.params.pollLimit.limit s.op.pollKind = none →
        exec .readStatusRegister1 s = .next again)

/-- R145: the budget of each request's polls. -/
def Obligations.PollKindOfEachRequest : Prop :=
  ∀ p : PollLimits,
    p.limit HostOp.write.pollKind = p.pp ∧ p.limit HostOp.eraseSector.pollKind = p.se ∧
    p.limit HostOp.erase.pollKind = p.se ∧ p.limit HostOp.eraseBlock32K.pollKind = p.be32 ∧
    p.limit HostOp.eraseBlock64K.pollKind = p.be64 ∧ p.limit HostOp.eraseChip.pollKind = p.ce ∧
    p.limit HostOp.waitIdle.pollKind = p.idle

/-- After the poll saw BUSY = 0 (R148, R162, R180, R205): WAIT_IDLE answers OK; a mutating step goes on to its next unit, or
with READBACK_VERIFY to the readback of its span, from the first byte on, at most 64 bytes at a time (R146). The span is
WRITE's chunk at its offset (R162), or the whole unit at its first byte (R180): the sector of the index in unit for ERASE,
the unit of index a for a per-unit erase, the whole array for the chip. -/
def Obligations.ReadyLeadsToReadbackOrNextUnit : Prop :=
  ∀ s : State, s.phase = .sPoll →
    (s.op = .waitIdle → s.afterReady = s.answered ⟨.ok, 0, [], none⟩) ∧
    (s.op.mutates = true → s.params.readbackVerify = false → s.afterReady = s.afterUnit) ∧
    ((s.readbackSpan = none ↔ s.op.mutates = false) ∧
      (s.op = .write → s.readbackSpan = some (s.cur.toNat, s.chunk.toNat)) ∧
      (s.op = .erase → s.readbackSpan = some (s.unit.toNat * 4096, 4096)) ∧
      (s.op = .eraseSector → s.readbackSpan = some (s.a.toNat * 4096, 4096)) ∧
      (s.op = .eraseBlock32K → s.readbackSpan = some (s.a.toNat * 32768, 32768)) ∧
      (s.op = .eraseBlock64K → s.readbackSpan = some (s.a.toNat * 65536, 65536)) ∧
      (s.op = .eraseChip → s.readbackSpan = some (0, 4194304))) ∧
    (∀ base len, s.readbackSpan = some (base, len) → s.params.readbackVerify = true →
      (0 < len → s.afterReady = { s with vpos := 0 }.issue .sVfy (Exchange.readData (wireAddr base) (min 64 len))) ∧
      (len = 0 → s.afterReady = { s with vpos := 0 }.afterUnit))

/-- A readback chunk answered Ok (R146, R226): bytes other than the expected ones end the request with ReadbackFail at once;
equal bytes are counted, and the next chunk of at most 64 bytes of the span is read, or the step is done; the span is that
of the statement before this one (R162, R180). The expected bytes are the chunk sent, or 0xFF over an erased unit. The chip
does not change (log entry 15). -/
def Obligations.ReadbackComparesWholeChunks : Prop :=
  ∀ (x : Addr) (n base len : Nat) (s : State), s.phase = .sVfy → s.readbackSpan = some (base, len) →
    x.toNat + n ≤ 4194304 → s.choice.err = none → s.vpos.toNat < len →
    let k := min 64 (len - s.vpos.toNat)
    let expected : List Byte :=
      if s.op = .write then (((s.wbuf.drop s.pos.toNat).take s.chunk.toNat).drop s.vpos.toNat).take k
      else List.replicate k 0xFF
    ∃ rx : List Byte, rx.length = n ∧
      (s.chipNow.busy = false → s.chipNow.poweredDown = false →
        rx = (List.range n).map (fun i => Memory.read s.chipNow.arr (x.toNat + i))) ∧
      (rx ≠ expected →
        exec (.readData x n) s =
          .next ({ s.consume with chip := s.chipNow }.answered ⟨.readbackFail, 0, [], none⟩)) ∧
      (rx = expected → ∃ v : BitVec 23, v.toNat = s.vpos.toNat + k ∧
        let u := { s.consume with chip := s.chipNow, vpos := v }
        (v.toNat < len →
          exec (.readData x n) s =
            .next (u.issue .sVfy (Exchange.readData (wireAddr (base + v.toNat)) (min 64 (len - v.toNat))))) ∧
        (v.toNat = len → exec (.readData x n) s = .next u.afterUnit))

/-- WRITE after a chunk (R161 step 4): with the data used up it answers OK; else the next chunk, min(rest, 256) bytes from
the next page's start, goes through its gate: the page check never fails. -/
def Obligations.WriteGoesOnToTheNextChunk : Prop :=
  ∀ s : State, s.phase.accepts = false → s.op = .write → s.WriteRegs →
    let pos := s.pos.toNat + s.chunk.toNat
    (s.wbuf.length ≤ pos →
      ∃ p c : Word, p.toNat = pos ∧ c.toNat = s.a.toNat + pos ∧
        s.afterUnit = { s with pos := p, cur := c, chunk := 0 }.answered ⟨.ok, 0, [], none⟩) ∧
    (pos < s.wbuf.length →
      ∃ (p c : Word) (k : BitVec 9), p.toNat = pos ∧ c.toNat = s.a.toNat + pos ∧ c.toNat % 256 = 0 ∧
        k.toNat = min (s.wbuf.length - pos) 256 ∧
        s.afterUnit = { s with pos := p, cur := c, chunk := k }.issue .sWe ⟨.w, [0x06], 0⟩)

/-- The erases after a unit (R180 to R185): ERASE goes on to the next sector's gate while its range lasts, every other erase
answers OK. -/
def Obligations.EraseGoesOnToTheNextSector : Prop :=
  ∀ s : State, s.phase.accepts = false →
    (s.op = .erase → s.unit.toNat < s.unitEnd.toNat → s.unitEnd.toNat ≤ 1024 →
      ∃ k : BitVec 11, k.toNat = s.unit.toNat + 1 ∧
        s.afterUnit =
          if s.unit.toNat + 1 < s.unitEnd.toNat then { s with unit := k }.issue .sWe ⟨.w, [0x06], 0⟩
          else { s with unit := k }.answered ⟨.ok, 0, [], none⟩) ∧
    (s.op = .eraseSector ∨ s.op = .eraseBlock32K ∨ s.op = .eraseBlock64K ∨ s.op = .eraseChip →
      s.afterUnit = s.answered ⟨.ok, 0, [], none⟩)

/-! ### The chip -/

/-- R142, R30: the status byte's bit 0 is BUSY and bit 1 is WEL; bits 7 to 2 are whatever they are and change neither
test. -/
def Obligations.StatusBitsAreBusyAndLatch : Prop :=
  ∀ (busy wel : Bool) (free : Byte),
    statusBusy (statusByte busy wel free) = busy ∧ statusWel (statusByte busy wel free) = wel ∧
    (∀ k, 2 ≤ k → k < 8 → (statusByte busy wel free).getLsbD k = free.getLsbD k)

/-- A busy chip ignores every command but the status read (R73). Reset is left out: R79 makes BUSY, WEL and the operation
in flight open after it, which the model lets happen to a busy chip too (log entry 17). -/
def Obligations.BusyChipIgnoresCommands : Prop :=
  ∀ (i : Instr) (c : BusChoice) (ch : Chip), ch.busy = true → i ≠ .reset → (Chip.react i c ch).1 = ch

/-- When the operation in flight completes, BUSY is 0, and WEL is 0 after an erase or a program of at least one byte (R74,
R75; after a program with no data and with no operation known it is open, log entries 12 and 14); each byte of a program is
the AND of old and new (R74, general knowledge G4), each byte of an erased unit is 0xFF (R75), and every other byte of the
array is as it was. -/
def Obligations.CompletionAppliesTheOperation : Prop :=
  ∀ (c : BusChoice) (ch : Chip), ch.busy = true → c.done = true → Memory.wf ch.arr →
    let k := ch.settle c
    k.busy = false ∧ k.inflight = none ∧ k.uid = ch.uid ∧
    (ch.inflight = none → k.arr = ch.arr) ∧
    (∀ x d, ch.inflight = some (.program x d) → d ≠ [] → k.wel = false) ∧
    (∀ base size, ch.inflight = some (.erase base size) → k.wel = false) ∧
    (∀ x d, ch.inflight = some (.program x d) → x + d.length ≤ 4194304 → ∀ a,
      Memory.read k.arr a =
        if x ≤ a ∧ a < x + d.length then Memory.read ch.arr a &&& d.getD (a - x) 0 else Memory.read ch.arr a) ∧
    (∀ base size, ch.inflight = some (.erase base size) → ∀ a,
      Memory.read k.arr a = if base ≤ a ∧ a < base + size then 0xFF else Memory.read ch.arr a)

/-- Bytes programmed over an erased range read back as written (R82, on the chip: R74 and R77). -/
def Obligations.ProgramOverErasedReadsBack : Prop :=
  ∀ (m : Memory) (x : Nat) (d : List Byte), Memory.wf m → x + d.length ≤ 4194304 →
    (∀ i, i < d.length → Memory.read m (x + i) = 0xFF) →
    Memory.readRange ((ChipOp.program x d).apply m) x d.length = d

/-! ### Frames -/

/-- What no instruction changes: the parameters, the control outputs, the reset input, the offers and the identifier; a
wire command leaves the latched request as it is; a host request leaves the chip and the environment's choices as they
are, so every byte of memory too; an instruction issues at most one exchange and delivers at most one response, after
those before. -/
def Obligations.FrameOfEveryInstruction : Prop :=
  ∀ (i : Instr) (s t : State), exec i s = .next t →
    t.params = s.params ∧ t.holdN = s.holdN ∧ t.wpN = s.wpN ∧ t.resetIn = s.resetIn ∧ t.offers = s.offers ∧
    t.chip.uid = s.chip.uid ∧
    (i.hostOp = none → t.op = s.op ∧ t.a = s.a ∧ t.b = s.b) ∧
    (i.hostOp ≠ none → t.chip = s.chip ∧ t.script = s.script ∧ t.draws = s.draws ∧
      ∀ a, Memory.read t.chip.arr a = Memory.read s.chip.arr a) ∧
    (t.trace = s.trace ∨ ∃ e, t.trace = s.trace ++ [e]) ∧
    (t.responses = s.responses ∨ ∃ r, t.responses = s.responses ++ [r])

/-- Which bytes of memory an instruction can change when its exchange is answered Ok: only those of the operation in flight,
and only when it completes; every other byte reads as before (R74, R75; log entry 12). That the reads and Reset leave the
array alone is general knowledge the model follows (log entries 15 and 17), that EnableReset and ReleasePowerDown do is the
model's reading (log entries 16 and 19). PowerDown is stated for the busy chip that ignores it; what survives a power-down is
open (R240, log entry 18). -/
def Obligations.MemoryChangesOnlyAtCompletion : Prop :=
  ∀ (i : Instr) (s t : State) (a : Nat), exec i s = .next t → s.choice.err = none → Memory.wf s.chip.arr →
    (i = .powerDown → s.chipNow.busy = true) →
    (∀ op, s.chip.busy = true → s.choice.done = true → s.chip.inflight = some op → op.covers a = false) →
    Memory.read t.chip.arr a = Memory.read s.chip.arr a

/-- The registers a wire command leaves alone outside the procedure's own: every command but the status read leaves sr;
every command but the status read, the programs and the erases leaves pollcnt; a command answered outside the completion
poll and the readback leaves the step registers cur, pos, chunk, unit, unit_end. -/
def Obligations.FrameOfTheStepRegisters : Prop :=
  ∀ (i : Instr) (s t : State), exec i s = .next t → i.hostOp = none →
    (i ≠ .readStatusRegister1 → t.sr = s.sr) ∧
    (i ≠ .readStatusRegister1 → s.phase.isCommand = false → t.pollcnt = s.pollcnt) ∧
    (s.phase ≠ .sPoll → s.phase ≠ .sVfy →
      t.cur = s.cur ∧ t.pos = s.pos ∧ t.chunk = s.chunk ∧ t.unit = s.unit ∧ t.vpos = s.vpos) ∧
    t.unitEnd = s.unitEnd

/-! ### Whole-machine rules -/

/-- A well-formed wire command has a next state exactly when the sequencer has it outstanding (R27, R95). -/
def Obligations.CommandsRunExactlyWhereOutstanding : Prop :=
  ∀ (i : Instr) (s : State), i.hostOp = none → i.WellFormed →
    ((∃ t, exec i s = .next t) ↔ s.outstanding i = true)

/-- R24: both control outputs are high from block reset on, and no step changes them. -/
def Obligations.ControlLinesStayHigh : Prop :=
  (∀ (s : State) (ok : Bool), (s.blockReset ok).holdN = true ∧ (s.blockReset ok).wpN = true) ∧
  (∀ s t : State, step s = .next t → s.holdN = true → s.wpN = true → t.holdN = true ∧ t.wpN = true) ∧
  (∀ s t : State, step s = .next t → s.noReset → t.holdN = s.holdN ∧ t.wpN = s.wpN)

/-- No step changes the build parameters (R31). -/
def Obligations.ParametersNeverChange : Prop :=
  ∀ s t : State, step s = .next t → t.params = s.params

/-- A step delivers at most one response; one that does leaves the block accepting requests with no exchange outstanding and
no response awaited, so that the run has ended exactly if nothing is offered (R262; log entry 28), and the response has a
payload exactly for TransportError and no data with an error (R22, R27, R233). -/
def Obligations.StepDeliversAtMostOneResponse : Prop :=
  ∀ s t : State, step s = .next t →
    t.responses = s.responses ∨
    ∃ r, t.responses = s.responses ++ [r] ∧ t.phase.accepts = true ∧ t.bus = none ∧ t.trace = s.trace ∧
      t.awaiting = false ∧ (t.runEnded = true ↔ t.offers = []) ∧
      (r.payload.isSome = true ↔ r.result = .transportError) ∧ (r.result ≠ .ok → r.value = 0 ∧ r.rdata = [])

/-- A step issues at most one exchange; one that does leaves exactly that exchange outstanding and delivers no response, so
that the run has not ended (R23, R140, R262). -/
def Obligations.StepIssuesAtMostOneExchange : Prop :=
  ∀ s t : State, step s = .next t →
    t.trace = s.trace ∨
    ∃ e, t.trace = s.trace ++ [e] ∧ t.bus = some e ∧ t.phase.accepts = false ∧ t.responses = s.responses ∧
      t.runEnded = false

/-- Every program and erase command is issued by the write-enable gate and by nothing else: straight after WriteEnable, or
after a status read that showed WEL = 1 (R143, R148, R253). -/
def Obligations.GatePrecedesEveryCommand : Prop :=
  ∀ s t : State, step s = .next t → t.phase.isCommand = true →
    (s.phase = .sWe ∧ s.params.verifyWe = false) ∨ (s.phase = .sWeRs ∧ t.sr.getLsbD 1 = true)

/-- After a program or erase command comes the completion poll, or TransportError (R67, R144). -/
def Obligations.PollFollowsEveryCommand : Prop :=
  ∀ s t : State, step s = .next t → s.noReset → s.phase.isCommand = true →
    (t.phase = .sPoll ∧ t.pollcnt = 0 ∧ t.bus = some ⟨.x, [0x05, 0x00], 2⟩) ∨
    (∃ p, s.choice.err = some p ∧ t.phase = .idle ∧
      t.responses = s.responses ++ [⟨.transportError, 0, [], some p⟩])

/-- The completion poll is left only when the chip is no longer busy, by an error of the transport, or by Timeout, so a
mutating request goes on, or answers OK, only after what it sent has completed (R67); for a chip that is not powered
down. -/
def Obligations.PollEndsOnlyWhenNotBusy : Prop :=
  ∀ s t : State, step s = .next t → s.noReset → s.phase = .sPoll → s.chip.poweredDown = false →
    t.phase = .sPoll ∨ t.chip.busy = false ∨
    (∃ p, t.responses = s.responses ++ [⟨.transportError, 0, [], some p⟩]) ∨
    t.responses = s.responses ++ [⟨.timeout, 0, [], none⟩]

/-- R229: Timeout comes only from a poll with a budget, after that many status reads; without one it is never raised. -/
def Obligations.TimeoutNeedsABudget : Prop :=
  ∀ s t : State, step s = .next t → t.responses = s.responses ++ [⟨.timeout, 0, [], none⟩] →
    s.phase = .sPoll ∧ t.sr.getLsbD 0 = true ∧ t.pollcnt = s.pollcnt + 1 ∧
    ∃ l, s.params.pollLimit.limit s.op.pollKind = some l ∧ l ≤ t.pollcnt

/-! ### The invariant -/

/-- State.reset meets the invariant. (Its chip's memory, and CTL_OK, are the model's choice: log entries 2 and 6.) -/
def Obligations.ResetMeetsTheInvariant : Prop := State.reset.Inv

/-- Every step keeps the invariant, from every state that has it: the outputs are high, the bus port holds the exchange of
the phase, the request in progress has that site, the registers are in the ranges of the procedures (R24, R27, R160, R161,
R181 to R183, R185, R146), the response of a request in progress is awaited (R262), and memory keeps its form. -/
def Obligations.EveryStepKeepsTheInvariant : Prop :=
  ∀ s t : State, s.Inv → step s = .next t → t.Inv

/-- Under the invariant the machine never stops but on an offer that is no request: no fault, no refused exchange (R27, R28,
R95). -/
def Obligations.InvariantStepAnswers : Prop :=
  ∀ s : State, s.Inv → (∀ r rest, s.phase.accepts = true → s.offers = r :: rest → ∃ i, decodeRequest r = .ok i) →
    ∃ t, step s = .next t

/-- Under the invariant what is outstanding is one of the thirteen commands in its frame and shape, with operands in their
ranges: a PageProgram never crosses its page, no address leaves the array, erases are aligned (R58, R61, R95). -/
def Obligations.OutstandingExchangeIsWellFormed : Prop :=
  ∀ (s : State) (e : Exchange), s.Inv → s.bus = some e →
    ∃ i, encode i = .exchange e ∧ i.WellFormed ∧ s.outstanding i = true

/-- Every step keeps the memory's canonical form, whatever else the state holds (R50, R52). -/
def Obligations.EveryStepKeepsTheMemoryForm : Prop :=
  ∀ s t : State, Memory.wf s.chip.arr → step s = .next t → Memory.wf t.chip.arr
end

