-- ==== Sys2Proof/Laws/Memory.lean ====
section
/-! SUPPORT. Memory: every operation keeps the canonical form, and what each byte reads as after a store, a program or an
erase. -/

namespace Sys2Proof.Machine

open Config

/-- The part of the canonical form that the order of the list says. -/
abbrev Memory.Sorted (m : Memory) : Prop := m.Pairwise (fun c d => c.1 < d.1)

@[simp] theorem Memory.read_nil (a : Nat) : Memory.read [] a = Memory.unlisted := rfl

@[simp] theorem Memory.read_cons (c : Host.Cell) (m : Memory) (a : Nat) :
    Memory.read (c :: m) a = if c.1 = a then c.2 else Memory.read m a := rfl

/-- An address that no entry has reads as an unlisted one. -/
theorem Memory.read_of_not_mem {m : Memory} {a : Nat} (h : ∀ c ∈ m, c.1 ≠ a) : Memory.read m a = Memory.unlisted := by
  induction m with
  | nil => rfl
  | cons c m ih =>
    rw [Memory.read_cons, if_neg (h c (by simp)), ih fun d hd => h d (by simp [hd])]

theorem Memory.read_append (m n : Memory) (a : Nat) :
    Memory.read (m ++ n) a = if ∃ c ∈ m, c.1 = a then Memory.read m a else Memory.read n a := by
  induction m with
  | nil => simp
  | cons c m ih => by_cases h : c.1 = a <;> simp_all

theorem Memory.read_cell (a : Nat) (v : Byte) (b : Nat) :
    Memory.read (Memory.cell a v) b = if b = a then v else Memory.unlisted := by
  unfold Memory.cell
  split
  · simp_all
  · simp [eq_comm]

theorem Memory.mem_cell {a : Nat} {v : Byte} {c : Host.Cell} (h : c ∈ Memory.cell a v) :
    c = (a, v) ∧ v ≠ Memory.unlisted := by
  unfold Memory.cell at h
  split at h <;> simp_all

theorem Memory.cell_sorted (a : Nat) (v : Byte) : Memory.Sorted (Memory.cell a v) := by
  unfold Memory.cell Memory.Sorted
  split <;> simp

/-- Reading a cell that stands before a memory of higher addresses. -/
theorem Memory.read_cell_append {m : Memory} {a : Nat} (v : Byte) (b : Nat) (h : ∀ c ∈ m, a < c.1) :
    Memory.read (Memory.cell a v ++ m) b = if b = a then v else Memory.read m b := by
  have hm : Memory.read m a = Memory.unlisted := Memory.read_of_not_mem fun c hc => by have := h c hc; omega
  unfold Memory.cell
  by_cases hv : v = Memory.unlisted
  · by_cases hb : b = a <;> simp_all
  · simp only [hv, if_false, List.cons_append, List.nil_append, Memory.read_cons]
    by_cases hb : b = a
    · simp [hb]
    · simp [hb, Ne.symm hb]

theorem Memory.cell_append_sorted {m : Memory} {a : Nat} (v : Byte) (h : ∀ c ∈ m, a < c.1) (hm : Memory.Sorted m) :
    Memory.Sorted (Memory.cell a v ++ m) := by
  refine List.pairwise_append.2 ⟨Memory.cell_sorted a v, hm, fun c hc d hd => ?_⟩
  rw [(Memory.mem_cell hc).1]
  exact h d hd

/-- An entry of the list after an insertion is the new cell or an old entry. -/
theorem Memory.mem_insert {m : Memory} {a : Nat} {v : Byte} {c : Host.Cell} (h : c ∈ Memory.insert m a v) :
    (c = (a, v) ∧ v ≠ Memory.unlisted) ∨ c ∈ m := by
  induction m with
  | nil => exact .inl (Memory.mem_cell h)
  | cons d m ih =>
    simp only [Memory.insert] at h
    split at h
    · exact (List.mem_append.1 h).imp Memory.mem_cell id
    · split at h
      · exact (List.mem_append.1 h).imp Memory.mem_cell (List.mem_cons_of_mem d)
      · rcases List.mem_cons.1 h with h | h
        · exact .inr (by simp [h])
        · exact (ih h).imp id (List.mem_cons_of_mem d)

theorem Memory.insert_sorted {m : Memory} (a : Nat) (v : Byte) (hm : Memory.Sorted m) :
    Memory.Sorted (Memory.insert m a v) := by
  induction m with
  | nil => exact Memory.cell_sorted a v
  | cons d m ih =>
    obtain ⟨hd, hm'⟩ := List.pairwise_cons.1 hm
    simp only [Memory.insert]
    split
    next h =>
      refine Memory.cell_append_sorted v (fun c hc => ?_) hm
      rcases List.mem_cons.1 hc with rfl | hc
      · exact h
      · exact h.trans (hd c hc)
    next h =>
      split
      next h' => exact Memory.cell_append_sorted v (fun c hc => h' ▸ hd c hc) hm'
      next h' =>
        refine List.pairwise_cons.2 ⟨fun c hc => ?_, ih hm'⟩
        rcases Memory.mem_insert hc with ⟨rfl, -⟩ | hc
        · show d.1 < a
          omega
        · exact hd c hc

/-- Reading after putting a byte into a sorted memory. -/
theorem Memory.read_insert {m : Memory} (a : Nat) (v : Byte) (b : Nat) (hm : Memory.Sorted m) :
    Memory.read (Memory.insert m a v) b = if b = a then v else Memory.read m b := by
  induction m with
  | nil => exact Memory.read_cell a v b
  | cons d m ih =>
    obtain ⟨hd, hm'⟩ := List.pairwise_cons.1 hm
    simp only [Memory.insert]
    split
    next h =>
      refine Memory.read_cell_append v b fun c hc => ?_
      rcases List.mem_cons.1 hc with rfl | hc
      · exact h
      · exact h.trans (hd c hc)
    next h =>
      split
      next h' =>
        rw [Memory.read_cell_append v b fun c hc => h' ▸ hd c hc]
        by_cases hb : b = a
        · simp [hb]
        · have : d.1 ≠ b := by omega
          simp [hb, this]
      next h' =>
        rw [Memory.read_cons, Memory.read_cons, ih hm']
        by_cases hb : b = a
        · have : d.1 ≠ b := by omega
          simp [hb, Ne.symm h']
        · simp [hb]

/-- A store keeps the canonical form. -/
theorem Memory.write_wf {m : Memory} (a : Nat) (v : Byte) (hm : Memory.wf m) : Memory.wf (Memory.write m a v) := by
  unfold Memory.write
  split
  next h =>
    refine ⟨Memory.insert_sorted a v hm.1, fun c hc => ?_⟩
    rcases Memory.mem_insert hc with ⟨rfl, hv⟩ | hc
    · exact ⟨h, hv⟩
    · exact hm.2 c hc
  · exact hm

/-- Reading a byte after a store inside the array. -/
theorem Memory.read_write {m : Memory} {a : Nat} (v : Byte) (b : Nat) (hm : Memory.wf m) (ha : a < capacity) :
    Memory.read (Memory.write m a v) b = if b = a then v else Memory.read m b := by
  rw [Memory.write, if_pos ha, Memory.read_insert a v b hm.1]

@[simp] theorem Memory.program_nil (m : Memory) (x : Nat) : Memory.program m x [] = m := rfl

theorem Memory.program_cons (m : Memory) (x : Nat) (v : Byte) (d : List Byte) :
    Memory.program m x (v :: d) = Memory.program (Memory.write m x (Memory.read m x &&& v)) (x + 1) d := rfl

/-- Programming keeps the canonical form. -/
theorem Memory.program_wf {m : Memory} (x : Nat) (d : List Byte) (hm : Memory.wf m) :
    Memory.wf (Memory.program m x d) := by
  induction d generalizing m x with
  | nil => exact hm
  | cons v d ih => exact ih (x + 1) (Memory.write_wf x _ hm)

/-- An erase keeps the canonical form. -/
theorem Memory.erase_wf {m : Memory} (base size : Nat) (hm : Memory.wf m) : Memory.wf (Memory.erase m base size) :=
  ⟨hm.1.filter _, fun c hc => hm.2 c (List.mem_filter.1 hc).1⟩

theorem Memory.wf_nil : Memory.wf [] := ⟨List.Pairwise.nil, by simp⟩

/-- A memory made of cells has the canonical form, whatever the cells. -/
theorem Memory.ofCells_wf (l : List (Nat × Byte)) : Memory.wf (Memory.ofCells l) := by
  have h : ∀ (l : List (Nat × Byte)) (m : Memory), Memory.wf m →
      Memory.wf (l.foldl (fun m c => Memory.write m c.1 c.2) m) := by
    intro l
    induction l with
    | nil => exact fun m hm => hm
    | cons c l ih => exact fun m hm => ih _ (Memory.write_wf c.1 c.2 hm)
  exact h l [] Memory.wf_nil

@[simp] theorem Memory.readRange_length (m : Memory) (x n : Nat) : (Memory.readRange m x n).length = n := by
  simp [Memory.readRange]

@[simp] theorem received_length (c : BusChoice) (n : Nat) : (c.received n).length = n := by
  simp [BusChoice.received]

end Sys2Proof.Machine
end

