-- ==== Sys2Proof/Laws/Chip.lean ====
section
/-! SUPPORT. The chip: how many bytes each command gets back, that every reaction keeps the memory's canonical form, and
the status bits. -/

namespace Sys2Proof.Machine

open Config

/-- BUSY of the status byte is the chip's (R71, R142). -/
@[simp] theorem statusBusy_statusByte (b w : Bool) (f : Byte) : statusBusy (statusByte b w f) = b := by
  revert b w f; decide

/-- WEL of the status byte is the chip's (R71, R142). -/
@[simp] theorem statusWel_statusByte (b w : Bool) (f : Byte) : statusWel (statusByte b w f) = w := by
  revert b w f; decide

theorem ChipOp.apply_wf {m : Memory} (op : ChipOp) (hm : Memory.wf m) : Memory.wf (op.apply m) := by
  cases op with
  | program x d => exact Memory.program_wf x d hm
  | erase base size => exact Memory.erase_wf base size hm

theorem Chip.complete_wf {ch : Chip} (c : BusChoice) (h : Memory.wf ch.arr) : Memory.wf (ch.complete c).arr := by
  show Memory.wf (match ch.inflight with | none => ch.arr | some op => op.apply ch.arr)
  split
  · exact h
  · exact ChipOp.apply_wf _ h

/-- Completion clears WEL exactly where a rule says so; elsewhere it is the free value (R74, R75; log entry 12). -/
@[simp] theorem Chip.latchAfter_program (c : BusChoice) (x : Nat) (v : Byte) (d : List Byte) :
    Chip.latchAfter c (some (.program x (v :: d))) = false := rfl
@[simp] theorem Chip.latchAfter_empty (c : BusChoice) (x : Nat) : Chip.latchAfter c (some (.program x [])) = c.latchKept := rfl
@[simp] theorem Chip.latchAfter_erase (c : BusChoice) (base size : Nat) :
    Chip.latchAfter c (some (.erase base size)) = false := rfl
@[simp] theorem Chip.latchAfter_none (c : BusChoice) : Chip.latchAfter c none = c.latchKept := rfl

theorem Chip.settle_wf {ch : Chip} (c : BusChoice) (h : Memory.wf ch.arr) : Memory.wf (ch.settle c).arr := by
  unfold Chip.settle
  split
  · exact Chip.complete_wf c h
  · exact h

theorem Chip.scramble_wf (c : BusChoice) (ch : Chip) : Memory.wf (ch.scramble c).arr := Memory.ofCells_wf c.cells

@[simp] theorem Chip.scramble_uid (c : BusChoice) (ch : Chip) : (ch.scramble c).uid = ch.uid := rfl

@[simp] theorem Chip.settle_uid (c : BusChoice) (ch : Chip) : (ch.settle c).uid = ch.uid := by
  unfold Chip.settle
  split <;> rfl

/-- What a command can do: nothing, or its effect; and what comes back is the effect's answer only from a chip that is
neither busy nor powered down. -/
theorem Chip.command_cases (n : Nat) (effect : Chip → Chip × List Byte) (c : BusChoice) (ch : Chip) :
    (Chip.command n effect c ch = (ch, c.received n)) ∨
      (ch.busy = false ∧ ch.poweredDown = true ∧ Chip.command n effect c ch = ((effect ch).1, c.received n)) ∨
      (ch.busy = false ∧ ch.poweredDown = false ∧ Chip.command n effect c ch = effect ch) := by
  unfold Chip.command
  cases hb : ch.busy <;> cases hp : ch.poweredDown <;> cases hi : c.ignored <;> simp

/-- A property of the chip that the effect keeps is kept by the command. -/
theorem Chip.command_keeps {P : Chip → Prop} (n : Nat) (effect : Chip → Chip × List Byte) (c : BusChoice) {ch : Chip}
    (h : P ch) (he : P (effect ch).1) : P (Chip.command n effect c ch).1 := by
  rcases Chip.command_cases n effect c ch with h' | ⟨-, -, h'⟩ | ⟨-, -, h'⟩ <;> simpa [h']

/-- No reaction but PowerDown's touches the array, and PowerDown's leaves one in canonical form. -/
theorem Chip.react_arr (i : Instr) (c : BusChoice) (ch : Chip) :
    (Chip.react i c ch).1.arr = ch.arr ∨ (i = .powerDown ∧ (Chip.react i c ch).1.arr = Memory.ofCells c.cells) := by
  cases i with
  | powerDown =>
    refine (Chip.command_keeps (P := fun k => k.arr = ch.arr ∨ k.arr = Memory.ofCells c.cells) 0 _ c (.inl rfl) (.inr rfl)).imp
      id fun h => ⟨rfl, h⟩
  | pageProgram x d =>
    refine .inl (Chip.command_keeps (P := fun k => k.arr = ch.arr) 0 _ c rfl ?_)
    split
    · rfl
    · split <;> rfl
  | sectorErase x | blockErase32K x | blockErase64K x | chipErase =>
    refine .inl (Chip.command_keeps (P := fun k => k.arr = ch.arr) 0 _ c rfl ?_)
    split <;> rfl
  | readStatusRegister1 =>
    refine .inl ?_
    simp only [Chip.react, Chip.readStatusRegister1]
    split <;> rfl
  | releasePowerDown =>
    refine .inl ?_
    simp only [Chip.react, Chip.releasePowerDown]
    split <;> rfl
  | readData x n => exact .inl (Chip.command_keeps (P := fun k => k.arr = ch.arr) n _ c rfl rfl)
  | writeEnable => exact .inl (Chip.command_keeps (P := fun k => k.arr = ch.arr) 0 _ c rfl rfl)
  | uniqueId => exact .inl (Chip.command_keeps (P := fun k => k.arr = ch.arr) idFrameLen _ c rfl rfl)
  | enableReset => exact .inl (Chip.command_keeps (P := fun k => k.arr = ch.arr) 0 _ c rfl rfl)
  | _ => exact .inl rfl

/-- Every reaction keeps the memory's canonical form. -/
theorem Chip.react_wf (i : Instr) (c : BusChoice) {ch : Chip} (h : Memory.wf ch.arr) :
    Memory.wf (Chip.react i c ch).1.arr := by
  rcases Chip.react_arr i c ch with h' | ⟨-, h'⟩
  · rw [h']; exact h
  · rw [h']; exact Memory.ofCells_wf _

end Sys2Proof.Machine
end

