-- ==== Sys2Proof/Laws/Decode.lean ====
section
/-! SUPPORT. The address field, the opcode map and the op codes: each reads back as it was built. -/

namespace Sys2Proof

open Config

@[simp] theorem Opcode.ofByte_byte (o : Opcode) : Opcode.ofByte o.byte = some o := by
  cases o <;> decide

/-- A byte that has an opcode is that opcode's byte. -/
theorem Opcode.byte_of_ofByte {b : Byte} {o : Opcode} (h : Opcode.ofByte b = some o) : o.byte = b := by
  simpa using List.find?_some h

/-- The three address bytes are the address (R51, R54). -/
@[simp] theorem joinAddr_addrBytes (x : Addr) :
    joinAddr (x.extractLsb' 16 8) (x.extractLsb' 8 8) (x.extractLsb' 0 8) = x := by
  apply BitVec.eq_of_toNat_eq
  have := x.isLt
  simp only [joinAddr, BitVec.toNat_ofNat, BitVec.extractLsb'_toNat, Nat.shiftRight_eq_div_pow]
  omega

/-- Any three bytes are the address bytes of the address they make. -/
@[simp] theorem addrBytes_joinAddr (h m l : Byte) : addrBytes (joinAddr h m l) = [h, m, l] := by
  have := h.isLt
  have := m.isLt
  have := l.isLt
  simp only [addrBytes, List.cons.injEq, and_true]
  refine ⟨?_, ?_, ?_⟩ <;> apply BitVec.eq_of_toNat_eq <;>
    simp only [joinAddr, BitVec.toNat_ofNat, BitVec.extractLsb'_toNat, Nat.shiftRight_eq_div_pow] <;> omega

/-- No offset the block sends loses a bit (R51). -/
theorem wireAddr_toNat {x : Nat} (h : x ≤ capacity) : (wireAddr x).toNat = x := by
  simp only [wireAddr, BitVec.toNat_ofNat]
  exact Nat.mod_eq_of_lt (by unfold capacity at h; omega)

@[simp] theorem HostOp.ofCode_code (op : HostOp) : HostOp.ofCode op.code = op := by
  cases op <;> rfl

theorem HostOp.code_ofCode (c : BitVec 4) : (HostOp.ofCode c).code = c := by
  revert c
  decide

/-- A request's W0 has bits 31..4 zero (R102). -/
@[simp] theorem HostOp.request_reserved (op : HostOp) (a b : Word) (data : List Byte) :
    (op.request a b data).w0.extractLsb' 4 28 = 0#28 := by
  show (op.code.setWidth 32).extractLsb' 4 28 = 0#28
  cases op <;> decide

/-- A request's W0 holds its op in bits 3..0 (R102). -/
@[simp] theorem HostOp.request_op (op : HostOp) (a b : Word) (data : List Byte) :
    HostOp.ofCode ((op.request a b data).w0.extractLsb' 0 4) = op := by
  show HostOp.ofCode ((op.code.setWidth 32).extractLsb' 0 4) = op
  cases op <;> decide

end Sys2Proof
end

