-- ==== Sys2Proof/Laws/State.lean ====
section
/-! SUPPORT. One lemma per field per update of State, each true by rfl, so that no proof unfolds a record update. -/

namespace Sys2Proof.Machine

/-! ### State.consume -/

@[simp] theorem State.consume_params (s : State) : (s.consume).params = s.params := rfl
@[simp] theorem State.consume_holdN (s : State) : (s.consume).holdN = s.holdN := rfl
@[simp] theorem State.consume_wpN (s : State) : (s.consume).wpN = s.wpN := rfl
@[simp] theorem State.consume_phase (s : State) : (s.consume).phase = s.phase := rfl
@[simp] theorem State.consume_op (s : State) : (s.consume).op = s.op := rfl
@[simp] theorem State.consume_a (s : State) : (s.consume).a = s.a := rfl
@[simp] theorem State.consume_b (s : State) : (s.consume).b = s.b := rfl
@[simp] theorem State.consume_wbuf (s : State) : (s.consume).wbuf = s.wbuf := rfl
@[simp] theorem State.consume_cur (s : State) : (s.consume).cur = s.cur := rfl
@[simp] theorem State.consume_pos (s : State) : (s.consume).pos = s.pos := rfl
@[simp] theorem State.consume_chunk (s : State) : (s.consume).chunk = s.chunk := rfl
@[simp] theorem State.consume_unit (s : State) : (s.consume).unit = s.unit := rfl
@[simp] theorem State.consume_unitEnd (s : State) : (s.consume).unitEnd = s.unitEnd := rfl
@[simp] theorem State.consume_pollcnt (s : State) : (s.consume).pollcnt = s.pollcnt := rfl
@[simp] theorem State.consume_vpos (s : State) : (s.consume).vpos = s.vpos := rfl
@[simp] theorem State.consume_sr (s : State) : (s.consume).sr = s.sr := rfl
@[simp] theorem State.consume_result (s : State) : (s.consume).result = s.result := rfl
@[simp] theorem State.consume_value (s : State) : (s.consume).value = s.value := rfl
@[simp] theorem State.consume_rdata (s : State) : (s.consume).rdata = s.rdata := rfl
@[simp] theorem State.consume_payload (s : State) : (s.consume).payload = s.payload := rfl
@[simp] theorem State.consume_bus (s : State) : (s.consume).bus = s.bus := rfl
@[simp] theorem State.consume_chip (s : State) : (s.consume).chip = s.chip := rfl
@[simp] theorem State.consume_resetIn (s : State) : (s.consume).resetIn = s.resetIn := rfl
@[simp] theorem State.consume_offers (s : State) : (s.consume).offers = s.offers := rfl
@[simp] theorem State.consume_responses (s : State) : (s.consume).responses = s.responses := rfl
@[simp] theorem State.consume_trace (s : State) : (s.consume).trace = s.trace := rfl
@[simp] theorem State.consume_awaiting (s : State) : (s.consume).awaiting = s.awaiting := rfl
@[simp] theorem State.consume_script (s : State) : (s.consume).script = s.script.tail := rfl
@[simp] theorem State.consume_draws (s : State) : (s.consume).draws = if s.script.isEmpty then s.draws + 1 else s.draws := rfl

/-! ### State.issue -/

@[simp] theorem State.issue_params (L : Phase) (e : Exchange) (s : State) : (s.issue L e).params = s.params := rfl
@[simp] theorem State.issue_holdN (L : Phase) (e : Exchange) (s : State) : (s.issue L e).holdN = s.holdN := rfl
@[simp] theorem State.issue_wpN (L : Phase) (e : Exchange) (s : State) : (s.issue L e).wpN = s.wpN := rfl
@[simp] theorem State.issue_phase (L : Phase) (e : Exchange) (s : State) : (s.issue L e).phase = L := rfl
@[simp] theorem State.issue_op (L : Phase) (e : Exchange) (s : State) : (s.issue L e).op = s.op := rfl
@[simp] theorem State.issue_a (L : Phase) (e : Exchange) (s : State) : (s.issue L e).a = s.a := rfl
@[simp] theorem State.issue_b (L : Phase) (e : Exchange) (s : State) : (s.issue L e).b = s.b := rfl
@[simp] theorem State.issue_wbuf (L : Phase) (e : Exchange) (s : State) : (s.issue L e).wbuf = s.wbuf := rfl
@[simp] theorem State.issue_cur (L : Phase) (e : Exchange) (s : State) : (s.issue L e).cur = s.cur := rfl
@[simp] theorem State.issue_pos (L : Phase) (e : Exchange) (s : State) : (s.issue L e).pos = s.pos := rfl
@[simp] theorem State.issue_chunk (L : Phase) (e : Exchange) (s : State) : (s.issue L e).chunk = s.chunk := rfl
@[simp] theorem State.issue_unit (L : Phase) (e : Exchange) (s : State) : (s.issue L e).unit = s.unit := rfl
@[simp] theorem State.issue_unitEnd (L : Phase) (e : Exchange) (s : State) : (s.issue L e).unitEnd = s.unitEnd := rfl
@[simp] theorem State.issue_pollcnt (L : Phase) (e : Exchange) (s : State) : (s.issue L e).pollcnt = s.pollcnt := rfl
@[simp] theorem State.issue_vpos (L : Phase) (e : Exchange) (s : State) : (s.issue L e).vpos = s.vpos := rfl
@[simp] theorem State.issue_sr (L : Phase) (e : Exchange) (s : State) : (s.issue L e).sr = s.sr := rfl
@[simp] theorem State.issue_result (L : Phase) (e : Exchange) (s : State) : (s.issue L e).result = s.result := rfl
@[simp] theorem State.issue_value (L : Phase) (e : Exchange) (s : State) : (s.issue L e).value = s.value := rfl
@[simp] theorem State.issue_rdata (L : Phase) (e : Exchange) (s : State) : (s.issue L e).rdata = s.rdata := rfl
@[simp] theorem State.issue_payload (L : Phase) (e : Exchange) (s : State) : (s.issue L e).payload = s.payload := rfl
@[simp] theorem State.issue_bus (L : Phase) (e : Exchange) (s : State) : (s.issue L e).bus = some e := rfl
@[simp] theorem State.issue_chip (L : Phase) (e : Exchange) (s : State) : (s.issue L e).chip = s.chip := rfl
@[simp] theorem State.issue_resetIn (L : Phase) (e : Exchange) (s : State) : (s.issue L e).resetIn = s.resetIn := rfl
@[simp] theorem State.issue_offers (L : Phase) (e : Exchange) (s : State) : (s.issue L e).offers = s.offers := rfl
@[simp] theorem State.issue_responses (L : Phase) (e : Exchange) (s : State) : (s.issue L e).responses = s.responses := rfl
@[simp] theorem State.issue_trace (L : Phase) (e : Exchange) (s : State) : (s.issue L e).trace = s.trace ++ [e] := rfl
@[simp] theorem State.issue_awaiting (L : Phase) (e : Exchange) (s : State) : (s.issue L e).awaiting = s.awaiting := rfl
@[simp] theorem State.issue_script (L : Phase) (e : Exchange) (s : State) : (s.issue L e).script = s.script := rfl
@[simp] theorem State.issue_draws (L : Phase) (e : Exchange) (s : State) : (s.issue L e).draws = s.draws := rfl

/-! ### State.deliver -/

@[simp] theorem State.deliver_params (r : Response) (s : State) : (s.deliver r).params = s.params := rfl
@[simp] theorem State.deliver_holdN (r : Response) (s : State) : (s.deliver r).holdN = s.holdN := rfl
@[simp] theorem State.deliver_wpN (r : Response) (s : State) : (s.deliver r).wpN = s.wpN := rfl
@[simp] theorem State.deliver_phase (r : Response) (s : State) : (s.deliver r).phase = s.phase.afterResponse := rfl
@[simp] theorem State.deliver_op (r : Response) (s : State) : (s.deliver r).op = s.op := rfl
@[simp] theorem State.deliver_a (r : Response) (s : State) : (s.deliver r).a = s.a := rfl
@[simp] theorem State.deliver_b (r : Response) (s : State) : (s.deliver r).b = s.b := rfl
@[simp] theorem State.deliver_wbuf (r : Response) (s : State) : (s.deliver r).wbuf = [] := rfl
@[simp] theorem State.deliver_cur (r : Response) (s : State) : (s.deliver r).cur = s.cur := rfl
@[simp] theorem State.deliver_pos (r : Response) (s : State) : (s.deliver r).pos = s.pos := rfl
@[simp] theorem State.deliver_chunk (r : Response) (s : State) : (s.deliver r).chunk = s.chunk := rfl
@[simp] theorem State.deliver_unit (r : Response) (s : State) : (s.deliver r).unit = s.unit := rfl
@[simp] theorem State.deliver_unitEnd (r : Response) (s : State) : (s.deliver r).unitEnd = s.unitEnd := rfl
@[simp] theorem State.deliver_pollcnt (r : Response) (s : State) : (s.deliver r).pollcnt = s.pollcnt := rfl
@[simp] theorem State.deliver_vpos (r : Response) (s : State) : (s.deliver r).vpos = s.vpos := rfl
@[simp] theorem State.deliver_sr (r : Response) (s : State) : (s.deliver r).sr = s.sr := rfl
@[simp] theorem State.deliver_result (r : Response) (s : State) : (s.deliver r).result = r.result := rfl
@[simp] theorem State.deliver_value (r : Response) (s : State) : (s.deliver r).value = r.value := rfl
@[simp] theorem State.deliver_rdata (r : Response) (s : State) : (s.deliver r).rdata = r.rdata := rfl
@[simp] theorem State.deliver_payload (r : Response) (s : State) : (s.deliver r).payload = r.payload := rfl
@[simp] theorem State.deliver_bus (r : Response) (s : State) : (s.deliver r).bus = none := rfl
@[simp] theorem State.deliver_chip (r : Response) (s : State) : (s.deliver r).chip = s.chip := rfl
@[simp] theorem State.deliver_resetIn (r : Response) (s : State) : (s.deliver r).resetIn = s.resetIn := rfl
@[simp] theorem State.deliver_offers (r : Response) (s : State) : (s.deliver r).offers = s.offers := rfl
@[simp] theorem State.deliver_responses (r : Response) (s : State) : (s.deliver r).responses = s.responses ++ [r] := rfl
@[simp] theorem State.deliver_trace (r : Response) (s : State) : (s.deliver r).trace = s.trace := rfl
@[simp] theorem State.deliver_awaiting (r : Response) (s : State) : (s.deliver r).awaiting = false := rfl
@[simp] theorem State.deliver_script (r : Response) (s : State) : (s.deliver r).script = s.script := rfl
@[simp] theorem State.deliver_draws (r : Response) (s : State) : (s.deliver r).draws = s.draws := rfl

/-! ### State.respond -/

@[simp] theorem State.respond_params (v : Word) (d : List Byte) (s : State) : (s.respond v d).params = s.params := rfl
@[simp] theorem State.respond_holdN (v : Word) (d : List Byte) (s : State) : (s.respond v d).holdN = s.holdN := rfl
@[simp] theorem State.respond_wpN (v : Word) (d : List Byte) (s : State) : (s.respond v d).wpN = s.wpN := rfl
@[simp] theorem State.respond_phase (v : Word) (d : List Byte) (s : State) : (s.respond v d).phase = s.phase.afterResponse := rfl
@[simp] theorem State.respond_op (v : Word) (d : List Byte) (s : State) : (s.respond v d).op = s.op := rfl
@[simp] theorem State.respond_a (v : Word) (d : List Byte) (s : State) : (s.respond v d).a = s.a := rfl
@[simp] theorem State.respond_b (v : Word) (d : List Byte) (s : State) : (s.respond v d).b = s.b := rfl
@[simp] theorem State.respond_wbuf (v : Word) (d : List Byte) (s : State) : (s.respond v d).wbuf = [] := rfl
@[simp] theorem State.respond_cur (v : Word) (d : List Byte) (s : State) : (s.respond v d).cur = s.cur := rfl
@[simp] theorem State.respond_pos (v : Word) (d : List Byte) (s : State) : (s.respond v d).pos = s.pos := rfl
@[simp] theorem State.respond_chunk (v : Word) (d : List Byte) (s : State) : (s.respond v d).chunk = s.chunk := rfl
@[simp] theorem State.respond_unit (v : Word) (d : List Byte) (s : State) : (s.respond v d).unit = s.unit := rfl
@[simp] theorem State.respond_unitEnd (v : Word) (d : List Byte) (s : State) : (s.respond v d).unitEnd = s.unitEnd := rfl
@[simp] theorem State.respond_pollcnt (v : Word) (d : List Byte) (s : State) : (s.respond v d).pollcnt = s.pollcnt := rfl
@[simp] theorem State.respond_vpos (v : Word) (d : List Byte) (s : State) : (s.respond v d).vpos = s.vpos := rfl
@[simp] theorem State.respond_sr (v : Word) (d : List Byte) (s : State) : (s.respond v d).sr = s.sr := rfl
@[simp] theorem State.respond_result (v : Word) (d : List Byte) (s : State) : (s.respond v d).result = .ok := rfl
@[simp] theorem State.respond_value (v : Word) (d : List Byte) (s : State) : (s.respond v d).value = v := rfl
@[simp] theorem State.respond_rdata (v : Word) (d : List Byte) (s : State) : (s.respond v d).rdata = d := rfl
@[simp] theorem State.respond_payload (v : Word) (d : List Byte) (s : State) : (s.respond v d).payload = none := rfl
@[simp] theorem State.respond_bus (v : Word) (d : List Byte) (s : State) : (s.respond v d).bus = none := rfl
@[simp] theorem State.respond_chip (v : Word) (d : List Byte) (s : State) : (s.respond v d).chip = s.chip := rfl
@[simp] theorem State.respond_resetIn (v : Word) (d : List Byte) (s : State) : (s.respond v d).resetIn = s.resetIn := rfl
@[simp] theorem State.respond_offers (v : Word) (d : List Byte) (s : State) : (s.respond v d).offers = s.offers := rfl
@[simp] theorem State.respond_responses (v : Word) (d : List Byte) (s : State) : (s.respond v d).responses = s.responses ++ [⟨.ok, v, d, none⟩] := rfl
@[simp] theorem State.respond_trace (v : Word) (d : List Byte) (s : State) : (s.respond v d).trace = s.trace := rfl
@[simp] theorem State.respond_awaiting (v : Word) (d : List Byte) (s : State) : (s.respond v d).awaiting = false := rfl
@[simp] theorem State.respond_script (v : Word) (d : List Byte) (s : State) : (s.respond v d).script = s.script := rfl
@[simp] theorem State.respond_draws (v : Word) (d : List Byte) (s : State) : (s.respond v d).draws = s.draws := rfl

/-! ### State.raise -/

@[simp] theorem State.raise_params (e : ReqError) (s : State) : (s.raise e).params = s.params := rfl
@[simp] theorem State.raise_holdN (e : ReqError) (s : State) : (s.raise e).holdN = s.holdN := rfl
@[simp] theorem State.raise_wpN (e : ReqError) (s : State) : (s.raise e).wpN = s.wpN := rfl
@[simp] theorem State.raise_phase (e : ReqError) (s : State) : (s.raise e).phase = s.phase.afterResponse := rfl
@[simp] theorem State.raise_op (e : ReqError) (s : State) : (s.raise e).op = s.op := rfl
@[simp] theorem State.raise_a (e : ReqError) (s : State) : (s.raise e).a = s.a := rfl
@[simp] theorem State.raise_b (e : ReqError) (s : State) : (s.raise e).b = s.b := rfl
@[simp] theorem State.raise_wbuf (e : ReqError) (s : State) : (s.raise e).wbuf = [] := rfl
@[simp] theorem State.raise_cur (e : ReqError) (s : State) : (s.raise e).cur = s.cur := rfl
@[simp] theorem State.raise_pos (e : ReqError) (s : State) : (s.raise e).pos = s.pos := rfl
@[simp] theorem State.raise_chunk (e : ReqError) (s : State) : (s.raise e).chunk = s.chunk := rfl
@[simp] theorem State.raise_unit (e : ReqError) (s : State) : (s.raise e).unit = s.unit := rfl
@[simp] theorem State.raise_unitEnd (e : ReqError) (s : State) : (s.raise e).unitEnd = s.unitEnd := rfl
@[simp] theorem State.raise_pollcnt (e : ReqError) (s : State) : (s.raise e).pollcnt = s.pollcnt := rfl
@[simp] theorem State.raise_vpos (e : ReqError) (s : State) : (s.raise e).vpos = s.vpos := rfl
@[simp] theorem State.raise_sr (e : ReqError) (s : State) : (s.raise e).sr = s.sr := rfl
@[simp] theorem State.raise_result (e : ReqError) (s : State) : (s.raise e).result = e.result := rfl
@[simp] theorem State.raise_value (e : ReqError) (s : State) : (s.raise e).value = 0 := rfl
@[simp] theorem State.raise_rdata (e : ReqError) (s : State) : (s.raise e).rdata = [] := rfl
@[simp] theorem State.raise_payload (e : ReqError) (s : State) : (s.raise e).payload = e.carried := rfl
@[simp] theorem State.raise_bus (e : ReqError) (s : State) : (s.raise e).bus = none := rfl
@[simp] theorem State.raise_chip (e : ReqError) (s : State) : (s.raise e).chip = s.chip := rfl
@[simp] theorem State.raise_resetIn (e : ReqError) (s : State) : (s.raise e).resetIn = s.resetIn := rfl
@[simp] theorem State.raise_offers (e : ReqError) (s : State) : (s.raise e).offers = s.offers := rfl
@[simp] theorem State.raise_responses (e : ReqError) (s : State) : (s.raise e).responses = s.responses ++ [⟨e.result, 0, [], e.carried⟩] := rfl
@[simp] theorem State.raise_trace (e : ReqError) (s : State) : (s.raise e).trace = s.trace := rfl
@[simp] theorem State.raise_awaiting (e : ReqError) (s : State) : (s.raise e).awaiting = false := rfl
@[simp] theorem State.raise_script (e : ReqError) (s : State) : (s.raise e).script = s.script := rfl
@[simp] theorem State.raise_draws (e : ReqError) (s : State) : (s.raise e).draws = s.draws := rfl

/-! ### State.latch -/

@[simp] theorem State.latch_params (op : HostOp) (x y : Word) (s : State) : (s.latch op x y).params = s.params := rfl
@[simp] theorem State.latch_holdN (op : HostOp) (x y : Word) (s : State) : (s.latch op x y).holdN = s.holdN := rfl
@[simp] theorem State.latch_wpN (op : HostOp) (x y : Word) (s : State) : (s.latch op x y).wpN = s.wpN := rfl
@[simp] theorem State.latch_phase (op : HostOp) (x y : Word) (s : State) : (s.latch op x y).phase = s.phase := rfl
@[simp] theorem State.latch_op (op : HostOp) (x y : Word) (s : State) : (s.latch op x y).op = op := rfl
@[simp] theorem State.latch_a (op : HostOp) (x y : Word) (s : State) : (s.latch op x y).a = x := rfl
@[simp] theorem State.latch_b (op : HostOp) (x y : Word) (s : State) : (s.latch op x y).b = y := rfl
@[simp] theorem State.latch_wbuf (op : HostOp) (x y : Word) (s : State) : (s.latch op x y).wbuf = s.wbuf := rfl
@[simp] theorem State.latch_cur (op : HostOp) (x y : Word) (s : State) : (s.latch op x y).cur = s.cur := rfl
@[simp] theorem State.latch_pos (op : HostOp) (x y : Word) (s : State) : (s.latch op x y).pos = s.pos := rfl
@[simp] theorem State.latch_chunk (op : HostOp) (x y : Word) (s : State) : (s.latch op x y).chunk = s.chunk := rfl
@[simp] theorem State.latch_unit (op : HostOp) (x y : Word) (s : State) : (s.latch op x y).unit = s.unit := rfl
@[simp] theorem State.latch_unitEnd (op : HostOp) (x y : Word) (s : State) : (s.latch op x y).unitEnd = s.unitEnd := rfl
@[simp] theorem State.latch_pollcnt (op : HostOp) (x y : Word) (s : State) : (s.latch op x y).pollcnt = s.pollcnt := rfl
@[simp] theorem State.latch_vpos (op : HostOp) (x y : Word) (s : State) : (s.latch op x y).vpos = s.vpos := rfl
@[simp] theorem State.latch_sr (op : HostOp) (x y : Word) (s : State) : (s.latch op x y).sr = s.sr := rfl
@[simp] theorem State.latch_result (op : HostOp) (x y : Word) (s : State) : (s.latch op x y).result = s.result := rfl
@[simp] theorem State.latch_value (op : HostOp) (x y : Word) (s : State) : (s.latch op x y).value = s.value := rfl
@[simp] theorem State.latch_rdata (op : HostOp) (x y : Word) (s : State) : (s.latch op x y).rdata = s.rdata := rfl
@[simp] theorem State.latch_payload (op : HostOp) (x y : Word) (s : State) : (s.latch op x y).payload = s.payload := rfl
@[simp] theorem State.latch_bus (op : HostOp) (x y : Word) (s : State) : (s.latch op x y).bus = s.bus := rfl
@[simp] theorem State.latch_chip (op : HostOp) (x y : Word) (s : State) : (s.latch op x y).chip = s.chip := rfl
@[simp] theorem State.latch_resetIn (op : HostOp) (x y : Word) (s : State) : (s.latch op x y).resetIn = s.resetIn := rfl
@[simp] theorem State.latch_offers (op : HostOp) (x y : Word) (s : State) : (s.latch op x y).offers = s.offers := rfl
@[simp] theorem State.latch_responses (op : HostOp) (x y : Word) (s : State) : (s.latch op x y).responses = s.responses := rfl
@[simp] theorem State.latch_trace (op : HostOp) (x y : Word) (s : State) : (s.latch op x y).trace = s.trace := rfl
@[simp] theorem State.latch_awaiting (op : HostOp) (x y : Word) (s : State) : (s.latch op x y).awaiting = true := rfl
@[simp] theorem State.latch_script (op : HostOp) (x y : Word) (s : State) : (s.latch op x y).script = s.script := rfl
@[simp] theorem State.latch_draws (op : HostOp) (x y : Word) (s : State) : (s.latch op x y).draws = s.draws := rfl

/-! ### State.readStatus -/

@[simp] theorem State.readStatus_params (rx : List Byte) (s : State) : (s.readStatus rx).params = s.params := rfl
@[simp] theorem State.readStatus_holdN (rx : List Byte) (s : State) : (s.readStatus rx).holdN = s.holdN := rfl
@[simp] theorem State.readStatus_wpN (rx : List Byte) (s : State) : (s.readStatus rx).wpN = s.wpN := rfl
@[simp] theorem State.readStatus_phase (rx : List Byte) (s : State) : (s.readStatus rx).phase = s.phase := rfl
@[simp] theorem State.readStatus_op (rx : List Byte) (s : State) : (s.readStatus rx).op = s.op := rfl
@[simp] theorem State.readStatus_a (rx : List Byte) (s : State) : (s.readStatus rx).a = s.a := rfl
@[simp] theorem State.readStatus_b (rx : List Byte) (s : State) : (s.readStatus rx).b = s.b := rfl
@[simp] theorem State.readStatus_wbuf (rx : List Byte) (s : State) : (s.readStatus rx).wbuf = s.wbuf := rfl
@[simp] theorem State.readStatus_cur (rx : List Byte) (s : State) : (s.readStatus rx).cur = s.cur := rfl
@[simp] theorem State.readStatus_pos (rx : List Byte) (s : State) : (s.readStatus rx).pos = s.pos := rfl
@[simp] theorem State.readStatus_chunk (rx : List Byte) (s : State) : (s.readStatus rx).chunk = s.chunk := rfl
@[simp] theorem State.readStatus_unit (rx : List Byte) (s : State) : (s.readStatus rx).unit = s.unit := rfl
@[simp] theorem State.readStatus_unitEnd (rx : List Byte) (s : State) : (s.readStatus rx).unitEnd = s.unitEnd := rfl
@[simp] theorem State.readStatus_pollcnt (rx : List Byte) (s : State) : (s.readStatus rx).pollcnt = s.pollcnt := rfl
@[simp] theorem State.readStatus_vpos (rx : List Byte) (s : State) : (s.readStatus rx).vpos = s.vpos := rfl
@[simp] theorem State.readStatus_sr (rx : List Byte) (s : State) : (s.readStatus rx).sr = rx.getD 1 0 := rfl
@[simp] theorem State.readStatus_result (rx : List Byte) (s : State) : (s.readStatus rx).result = s.result := rfl
@[simp] theorem State.readStatus_value (rx : List Byte) (s : State) : (s.readStatus rx).value = s.value := rfl
@[simp] theorem State.readStatus_rdata (rx : List Byte) (s : State) : (s.readStatus rx).rdata = s.rdata := rfl
@[simp] theorem State.readStatus_payload (rx : List Byte) (s : State) : (s.readStatus rx).payload = s.payload := rfl
@[simp] theorem State.readStatus_bus (rx : List Byte) (s : State) : (s.readStatus rx).bus = s.bus := rfl
@[simp] theorem State.readStatus_chip (rx : List Byte) (s : State) : (s.readStatus rx).chip = s.chip := rfl
@[simp] theorem State.readStatus_resetIn (rx : List Byte) (s : State) : (s.readStatus rx).resetIn = s.resetIn := rfl
@[simp] theorem State.readStatus_offers (rx : List Byte) (s : State) : (s.readStatus rx).offers = s.offers := rfl
@[simp] theorem State.readStatus_responses (rx : List Byte) (s : State) : (s.readStatus rx).responses = s.responses := rfl
@[simp] theorem State.readStatus_trace (rx : List Byte) (s : State) : (s.readStatus rx).trace = s.trace := rfl
@[simp] theorem State.readStatus_awaiting (rx : List Byte) (s : State) : (s.readStatus rx).awaiting = s.awaiting := rfl
@[simp] theorem State.readStatus_script (rx : List Byte) (s : State) : (s.readStatus rx).script = s.script := rfl
@[simp] theorem State.readStatus_draws (rx : List Byte) (s : State) : (s.readStatus rx).draws = s.draws := rfl

end Sys2Proof.Machine
end

