-- ==== Sys2Proof/Laws/Ops.lean ====
section
/-! SUPPORT. What each shared operation can do, said once: an exchange, a request, the continuations of the procedures, a
meaning, a step. -/

namespace Sys2Proof.Machine

open Config

/-! ### An exchange -/

/-- An exchange ends the request with TransportError, or the procedure goes on with what the chip sent. -/
theorem exchange_cases (act : BusChoice → Chip → Chip × List Byte) (go : List Byte → State → State) (s : State) :
    (∃ p, s.choice.err = some p ∧
      s.exchange act go = { s.consume with chip := s.chip.scramble s.choice }.raise (.transportError p)) ∨
    (s.choice.err = none ∧
      s.exchange act go = go (act s.choice s.chipNow).2 { s.consume with chip := (act s.choice s.chipNow).1 }) := by
  unfold State.exchange State.chipNow
  cases h : s.choice.err with
  | some p => exact .inl ⟨p, rfl, rfl⟩
  | none => exact .inr ⟨rfl, rfl⟩

theorem exchange_ok {act : BusChoice → Chip → Chip × List Byte} {go : List Byte → State → State} {s : State}
    (h : s.choice.err = none) :
    s.exchange act go = go (act s.choice s.chipNow).2 { s.consume with chip := (act s.choice s.chipNow).1 } := by
  simp [State.exchange, h, State.chipNow]

theorem exchange_err {act : BusChoice → Chip → Chip × List Byte} {go : List Byte → State → State} {s : State} {p : Payload}
    (h : s.choice.err = some p) :
    s.exchange act go = { s.consume with chip := s.chip.scramble s.choice }.raise (.transportError p) := by
  simp [State.exchange, h]

theorem atSite_iff {s : State} {L : Phase} : s.atSite L = true ↔ s.phase = L ∧ L.serves s.op = true := by
  simp [State.atSite]

/-- A wire command runs exactly at its site. -/
theorem runAt_next {L : Phase} {act : BusChoice → Chip → Chip × List Byte} {go : List Byte → State → State}
    {s t : State} : s.runAt L act go = .next t ↔ s.atSite L = true ∧ t = s.exchange act go := by
  unfold State.runAt
  split
  next h => exact ⟨fun e => ⟨h, (Host.Outcome.next.inj e).symm⟩, fun e => by rw [e.2]⟩
  next h => exact ⟨fun e => by simp at e, fun e => absurd e.1 h⟩

/-! ### A request -/

/-- A request is accepted in IDLE, answered in CTLFAULT, held elsewhere. -/
theorem request_next {op : HostOp} {a b : Word} {body : State → State} {s t : State} :
    s.request op a b body = .next t ↔
      (s.phase = .idle ∧ t = body (s.latch op a b)) ∨
      (s.phase = .ctlFault ∧ t = (s.latch op a b).raise .controlLineError) ∨
      (s.phase.accepts = false ∧ t = s) := by
  unfold State.request
  cases h : s.phase <;> simp [Phase.accepts, eq_comm]

@[simp] theorem Phase.afterResponse_accepts (L : Phase) : L.afterResponse.accepts = true := by cases L <;> rfl

theorem Phase.afterResponse_of_serves {L : Phase} {op : HostOp} (h : L.serves op = true) : L.afterResponse = .idle := by
  cases L <;> first | rfl | simp [Phase.serves] at h

theorem Phase.not_accepts_of_serves {L : Phase} {op : HostOp} (h : L.serves op = true) : L.accepts = false := by
  cases L <;> first | rfl | simp [Phase.serves] at h

/-! ### The continuations -/

/-- A response as R22 and R227 have it: the payload exactly for TransportError, nothing else with an error. -/
def Response.proper (r : Response) : Prop :=
  (r.payload.isSome = true ↔ r.result = .transportError) ∧ (r.result ≠ .ok → r.value = 0 ∧ r.rdata = [])

theorem proper_ok (v : Word) (d : List Byte) : Response.proper ⟨.ok, v, d, none⟩ := by simp [Response.proper]

theorem proper_error (e : ReqError) : Response.proper ⟨e.result, 0, [], e.carried⟩ := by
  cases e <;> simp [Response.proper, ReqError.result, ReqError.carried]

/-- What every way from one answer to the next exchange or to the response does: the parameters, outputs, latched
request, chip and inputs are as before, and either one exchange is issued or one response is delivered. -/
structure Continues (s t : State) : Prop where
  params  : t.params = s.params
  holdN   : t.holdN = s.holdN
  wpN     : t.wpN = s.wpN
  op      : t.op = s.op
  a       : t.a = s.a
  b       : t.b = s.b
  chip    : t.chip = s.chip
  resetIn : t.resetIn = s.resetIn
  offers  : t.offers = s.offers
  script  : t.script = s.script
  draws   : t.draws = s.draws
  ports   :
    (∃ e, t.phase.accepts = false ∧ t.bus = some e ∧ t.trace = s.trace ++ [e] ∧ t.responses = s.responses ∧
      t.awaiting = s.awaiting) ∨
    (∃ r, t.phase = s.phase.afterResponse ∧ t.bus = none ∧ t.trace = s.trace ∧ t.responses = s.responses ++ [r] ∧
      r.proper ∧ r = ⟨t.result, t.value, t.rdata, t.payload⟩ ∧ t.awaiting = false)

theorem continues_issue {s : State} {L : Phase} (h : L.accepts = false) (e : Exchange) : Continues s (s.issue L e) :=
  ⟨rfl, rfl, rfl, rfl, rfl, rfl, rfl, rfl, rfl, rfl, rfl, .inl ⟨e, h, rfl, rfl, rfl, rfl⟩⟩

theorem continues_respond (s : State) (v : Word) (d : List Byte) : Continues s (s.respond v d) :=
  ⟨rfl, rfl, rfl, rfl, rfl, rfl, rfl, rfl, rfl, rfl, rfl, .inr ⟨_, rfl, rfl, rfl, rfl, proper_ok v d, rfl, rfl⟩⟩

theorem continues_raise (s : State) (e : ReqError) : Continues s (s.raise e) :=
  ⟨rfl, rfl, rfl, rfl, rfl, rfl, rfl, rfl, rfl, rfl, rfl, .inr ⟨_, rfl, rfl, rfl, rfl, proper_error e, rfl, rfl⟩⟩

/-- Writing step registers first changes nothing of what Continues says. -/
theorem Continues.of_eq {s u t : State} (h : Continues u t) (hp : u.params = s.params) (h1 : u.holdN = s.holdN)
    (h2 : u.wpN = s.wpN) (h3 : u.op = s.op) (h4 : u.a = s.a) (h5 : u.b = s.b) (h6 : u.chip = s.chip)
    (h7 : u.resetIn = s.resetIn) (h8 : u.offers = s.offers) (h9 : u.script = s.script) (h10 : u.draws = s.draws)
    (h11 : u.phase = s.phase) (h12 : u.trace = s.trace) (h13 : u.responses = s.responses)
    (h14 : u.awaiting = s.awaiting) : Continues s t := by
  obtain ⟨a1, a2, a3, a4, a5, a6, a7, a8, a9, a10, a11, a12⟩ := h
  exact ⟨a1.trans hp, a2.trans h1, a3.trans h2, a4.trans h3, a5.trans h4, a6.trans h5, a7.trans h6, a8.trans h7,
    a9.trans h8, a10.trans h9, a11.trans h10, by rw [← h11, ← h12, ← h13, ← h14]; exact a12⟩

theorem continues_enterGate (s : State) : Continues s s.enterGate := continues_issue rfl _

theorem command_accepts {s : State} {L : Phase} {e : Exchange} (h : s.command = some (L, e)) : L.accepts = false := by
  unfold State.command at h
  split at h <;> simp only [Option.some.injEq, Prod.mk.injEq, reduceCtorEq] at h <;> (obtain ⟨rfl, -⟩ := h; rfl)

theorem continues_enterCommand {s : State} (h : s.op.mutates = true) : Continues s s.enterCommand := by
  unfold State.enterCommand
  split
  next L e he => exact continues_issue (command_accepts he) e
  next he =>
    unfold State.command at he
    cases ho : s.op <;> simp_all [HostOp.mutates]

theorem continues_afterWriteEnable {s : State} (h : s.op.mutates = true) : Continues s s.afterWriteEnable := by
  unfold State.afterWriteEnable
  split
  · exact continues_issue rfl _
  · exact continues_enterCommand h

theorem continues_afterGateStatus {s : State} (rx : List Byte) (h : s.op.mutates = true) :
    Continues s (s.afterGateStatus rx) := by
  unfold State.afterGateStatus
  dsimp only
  split
  · exact (continues_enterCommand (s := s.readStatus rx) h).of_eq rfl rfl rfl rfl rfl rfl rfl rfl rfl rfl rfl rfl rfl rfl rfl
  · exact (continues_raise (s.readStatus rx) _).of_eq rfl rfl rfl rfl rfl rfl rfl rfl rfl rfl rfl rfl rfl rfl rfl

theorem continues_waitReady (s : State) : Continues s s.waitReady :=
  (continues_issue (s := { s with pollcnt := 0 }) rfl _).of_eq rfl rfl rfl rfl rfl rfl rfl rfl rfl rfl rfl rfl rfl rfl rfl

theorem continues_pageProgramStep (s : State) : Continues s s.pageProgramStep := by
  unfold State.pageProgramStep
  split
  · exact continues_raise s _
  · exact continues_enterGate s

theorem continues_nextChunk (s : State) : Continues s s.nextChunk := by
  unfold State.nextChunk
  dsimp only
  split
  · exact (continues_respond _ _ _).of_eq rfl rfl rfl rfl rfl rfl rfl rfl rfl rfl rfl rfl rfl rfl rfl
  · exact (continues_pageProgramStep _).of_eq rfl rfl rfl rfl rfl rfl rfl rfl rfl rfl rfl rfl rfl rfl rfl

theorem continues_eraseLoop (s : State) : Continues s s.eraseLoop := by
  unfold State.eraseLoop
  split
  · exact continues_enterGate s
  · exact continues_respond s _ _

theorem continues_afterUnit (s : State) : Continues s s.afterUnit := by
  unfold State.afterUnit
  split
  · exact continues_nextChunk s
  · split
    · exact (continues_eraseLoop _).of_eq rfl rfl rfl rfl rfl rfl rfl rfl rfl rfl rfl rfl rfl rfl rfl
    · exact continues_respond s _ _

theorem continues_verifyLoop (s : State) : Continues s s.verifyLoop := by
  unfold State.verifyLoop
  split
  · exact continues_issue rfl _
  · exact continues_afterUnit s

theorem continues_afterReadback (s : State) (rx : List Byte) : Continues s (s.afterReadback rx) := by
  unfold State.afterReadback
  split
  · exact (continues_verifyLoop _).of_eq rfl rfl rfl rfl rfl rfl rfl rfl rfl rfl rfl rfl rfl rfl rfl
  · exact continues_raise s _

theorem continues_afterReady (s : State) : Continues s s.afterReady := by
  unfold State.afterReady
  split
  · split
    · exact (continues_verifyLoop _).of_eq rfl rfl rfl rfl rfl rfl rfl rfl rfl rfl rfl rfl rfl rfl rfl
    · exact continues_afterUnit s
  · exact continues_respond s _ _

theorem continues_afterPoll (s : State) (rx : List Byte) : Continues s (s.afterPoll rx) := by
  unfold State.afterPoll
  dsimp only
  split
  · split
    · split
      · exact (continues_raise _ _).of_eq rfl rfl rfl rfl rfl rfl rfl rfl rfl rfl rfl rfl rfl rfl rfl
      · exact (continues_issue rfl _).of_eq rfl rfl rfl rfl rfl rfl rfl rfl rfl rfl rfl rfl rfl rfl rfl
    · exact (continues_issue rfl _).of_eq rfl rfl rfl rfl rfl rfl rfl rfl rfl rfl rfl rfl rfl rfl rfl
  · exact (continues_afterReady _).of_eq rfl rfl rfl rfl rfl rfl rfl rfl rfl rfl rfl rfl rfl rfl rfl

/-- What the sequencer does with the bytes received at a site (R27, R140). -/
def Phase.resume : Phase → List Byte → State → State
  | .idle | .ctlFault => fun _ s => s
  | .sWe => fun _ => State.afterWriteEnable
  | .sWeRs => State.afterGateStatus
  | .sPp | .sSe | .sBe32 | .sBe64 | .sCe => fun _ => State.waitReady
  | .sPoll => State.afterPoll
  | .sVfy => State.afterReadback
  | .sRd => fun rx => State.respond 0 rx
  | .sId => fun rx => State.respond 0 ((rx.drop 5).take 8)
  | .sRstEn => fun _ => State.issue .sRst Exchange.reset
  | .sRst | .sPd | .sRpd => fun _ => State.respond 0 []

theorem continues_resume {L : Phase} {s : State} (rx : List Byte) (h : L.serves s.op = true) :
    Continues s (L.resume rx s) := by
  cases L with
  | idle | ctlFault => simp [Phase.serves] at h
  | sWe => exact continues_afterWriteEnable h
  | sWeRs => exact continues_afterGateStatus rx h
  | sPp | sSe | sBe32 | sBe64 | sCe => exact continues_waitReady s
  | sPoll => exact continues_afterPoll s rx
  | sVfy => exact continues_afterReadback s rx
  | sRd | sId | sRst | sPd | sRpd => exact continues_respond s _ _
  | sRstEn => exact continues_issue rfl _

/-! ### The meanings -/

/-- A wire command that answers is at its site: the chip reacts and the sequencer resumes there. -/
theorem exec_wire {i : Instr} {s t : State} (hi : i.hostOp = none) (h : exec i s = .next t) :
    s.phase.serves s.op = true ∧ t = s.exchange (Chip.react i) s.phase.resume := by
  have key : ∀ {L : Phase} {act : BusChoice → Chip → Chip × List Byte} {go : List Byte → State → State},
      s.runAt L act go = .next t → go = L.resume → s.phase.serves s.op = true ∧ t = s.exchange act s.phase.resume := by
    intro L act go h hgo
    obtain ⟨hs, rfl⟩ := runAt_next.1 h
    obtain ⟨rfl, hs⟩ := atSite_iff.1 hs
    exact ⟨hs, by rw [hgo]⟩
  cases i <;> simp only [Instr.hostOp, reduceCtorEq] at hi <;> simp only [exec] at h
  case pageProgram x d =>
    unfold execPageProgram at h
    split at h
    · simp at h
    · split at h
      · simp at h
      · exact key h rfl
  case readData x n =>
    unfold execReadData at h
    split at h
    · simp at h
    · split at h <;> exact key h rfl
  case readStatusRegister1 =>
    unfold execReadStatusRegister1 at h
    split at h <;> exact key h rfl
  case sectorErase x =>
    unfold execSectorErase at h
    split at h
    · simp at h
    · exact key h rfl
  case blockErase32K x =>
    unfold execBlockErase32K at h
    split at h
    · simp at h
    · exact key h rfl
  case blockErase64K x =>
    unfold execBlockErase64K at h
    split at h
    · simp at h
    · exact key h rfl
  all_goals exact key h rfl

/-- The operands a host request is latched with (R26, R101). -/
def hostOperands : Instr → Word × Word
  | .hostRead a b | .hostErase a b | .hostDeviceId a b | .hostReset a b | .hostCapacity a b | .hostEraseSector a b
  | .hostEraseBlock32K a b | .hostEraseBlock64K a b | .hostEraseChip a b | .hostPowerDown a b
  | .hostReleasePowerDown a b | .hostWaitIdle a b | .hostUnassigned0 a b | .hostUnassignedE a b
  | .hostUnassignedF a b => (a, b)
  | .hostWrite a data => (a, BitVec.ofNat 32 data.length)
  | .pageProgram _ _ | .readData _ _ | .readStatusRegister1 | .writeEnable | .sectorErase _ | .blockErase32K _
  | .uniqueId | .blockErase64K _ | .chipErase | .enableReset | .reset | .powerDown | .releasePowerDown => (0, 0)

/-- A host request is one request at the port; how it starts is one continuation. -/
theorem exec_host {i : Instr} {op : HostOp} (hi : i.hostOp = some op) (hw : i.WellFormed) (s : State) :
    ∃ body : State → State, (∀ u, Continues u (body u)) ∧
      exec i s = s.request op (hostOperands i).1 (hostOperands i).2 body := by
  cases i <;> simp only [Instr.hostOp, reduceCtorEq, Option.some.injEq] at hi <;> subst hi <;> simp only [exec]
  case hostRead a n =>
    refine ⟨_, fun u => ?_, rfl⟩
    split
    · exact continues_raise u _
    · exact continues_issue rfl _
  case hostWrite a data =>
    have hlen : ¬ 2 ^ 32 ≤ data.length := by simpa [Instr.WellFormed, Instr.wf] using hw
    refine ⟨_, fun u => ?_, by unfold execHostWrite; rw [if_neg hlen]; rfl⟩
    split
    · exact continues_raise u _
    · exact (continues_pageProgramStep _).of_eq rfl rfl rfl rfl rfl rfl rfl rfl rfl rfl rfl rfl rfl rfl rfl
  case hostErase first last =>
    refine ⟨_, fun u => ?_, rfl⟩
    split
    · exact continues_raise u _
    · split
      · exact continues_raise u _
      · split
        · exact continues_raise u _
        · exact (continues_eraseLoop _).of_eq rfl rfl rfl rfl rfl rfl rfl rfl rfl rfl rfl rfl rfl rfl rfl
  case hostEraseSector a b | hostEraseBlock32K a b | hostEraseBlock64K a b =>
    refine ⟨_, fun u => ?_, rfl⟩
    unfold State.eraseIndexed
    split
    · exact continues_raise u _
    · exact continues_enterGate u
  case hostEraseChip a b => exact ⟨_, continues_enterGate, rfl⟩
  case hostDeviceId a b | hostReset a b | hostPowerDown a b | hostReleasePowerDown a b =>
    exact ⟨_, fun u => continues_issue rfl _, rfl⟩
  case hostCapacity a b => exact ⟨_, fun u => continues_respond u _ _, rfl⟩
  case hostWaitIdle a b => exact ⟨_, continues_waitReady, rfl⟩
  case hostUnassigned0 a b | hostUnassignedE a b | hostUnassignedF a b =>
    exact ⟨_, fun u => continues_raise u _, rfl⟩

/-! ### A step -/

/-- The whole of what a step that answers can do. -/
theorem step_cases {s t : State} (h : step s = .next t) :
    (∃ ok, s.resetIn.head? = some (.reset ok) ∧ t = s.dropResetInput.blockReset ok) ∨
    ((∀ ok, s.resetIn.head? ≠ some (.reset ok)) ∧
      ((s.phase.accepts = true ∧ s.offers = [] ∧ t = s.dropResetInput) ∨
       (∃ r rest i, s.phase.accepts = true ∧ s.offers = r :: rest ∧ decodeRequest r = .ok i ∧
          exec i { s.dropResetInput with offers := rest } = .next t) ∨
       (∃ e i, s.phase.accepts = false ∧ s.bus = some e ∧ decodeExchange e = .ok i ∧
          exec i s.dropResetInput = .next t))) := by
  have run : ∀ u : State, u.phase = s.phase → u.offers = s.offers → u.bus = s.bus →
      (match u.fetch with
        | .wait => Host.Outcome.next u
        | .run i v => exec i v
        | .stop r => .refused r
        | .stuck f => .fault f) = .next t →
      (s.phase.accepts = true ∧ s.offers = [] ∧ t = u) ∨
       (∃ r rest i, s.phase.accepts = true ∧ s.offers = r :: rest ∧ decodeRequest r = .ok i ∧
          exec i { u with offers := rest } = .next t) ∨
       (∃ e i, s.phase.accepts = false ∧ s.bus = some e ∧ decodeExchange e = .ok i ∧ exec i u = .next t) := by
    intro u hp ho hb hu
    rw [← hp, ← ho, ← hb]
    unfold State.fetch State.fetchRequest State.fetchExchange at hu
    cases ha : u.phase.accepts with
    | true =>
      cases hof : u.offers with
      | nil => exact .inl ⟨rfl, rfl, by simpa [ha, hof, eq_comm] using hu⟩
      | cons r rest =>
        cases hd : decodeRequest r with
        | error e => simp [ha, hof, hd] at hu
        | ok i => exact .inr (.inl ⟨r, rest, i, rfl, rfl, hd, by simpa [ha, hof, hd] using hu⟩)
    | false =>
      cases hbu : u.bus with
      | none => simp [ha, hbu] at hu
      | some e =>
        cases hd : decodeExchange e with
        | error e' => simp [ha, hbu, hd] at hu
        | ok i => exact .inr (.inr ⟨e, i, rfl, rfl, hd, by simpa [ha, hbu, hd] using hu⟩)
  unfold step State.takeResetInput at h
  cases hr : s.resetIn with
  | nil =>
    have hd : s.dropResetInput = s := by
      have : s.resetIn.tail = s.resetIn := by rw [hr]; rfl
      simp only [State.dropResetInput, this]
    simp only [hr] at h
    refine .inr ⟨by simp, ?_⟩
    rw [hd]
    exact run s rfl rfl rfl h
  | cons x rest =>
    have hd : s.dropResetInput = { s with resetIn := rest } := by simp [State.dropResetInput, hr]
    rw [hd]
    cases x with
    | run =>
      simp only [hr] at h
      exact .inr ⟨by simp, run _ rfl rfl rfl h⟩
    | reset ok =>
      simp only [hr] at h
      exact .inl ⟨ok, by simp, by simpa [eq_comm] using h⟩

end Sys2Proof.Machine
end

