-- ==== Sys2Proof/Laws/PerInstr.lean ====
section
/-! SUPPORT. Statements for all instructions, made per instruction. -/

namespace Sys2Proof.Laws

/-- The encoding's own form: a wire command's exchange begins with an opcode byte and has the shape and the receive count
of that opcode (R90 to R92); a host request's W0 holds its op in bits 3..0 and zeros above (R102). -/
def EncodingForm.Statement (i : Instr) : Prop :=
  match encode i with
  | .exchange e =>
      i.hostOp = none ∧
        ∃ (o : Opcode) (rest : List Byte), e.tx = o.byte :: rest ∧ e.shape = o.shape ∧ e.countOk = true
  | .request r =>
      ∃ op, i.hostOp = some op ∧ r.w0.extractLsb' 4 28 = 0#28 ∧ HostOp.ofCode (r.w0.extractLsb' 0 4) = op

theorem EncodingForm.pageProgram (x : Addr) (d : List Byte) : EncodingForm.Statement (.pageProgram x d) :=
  ⟨rfl, .pageProgram, _, rfl, rfl, rfl⟩

theorem EncodingForm.readData (x : Addr) (n : Nat) : EncodingForm.Statement (.readData x n) :=
  ⟨rfl, .readData, _, rfl, rfl, rfl⟩

theorem EncodingForm.readStatusRegister1 : EncodingForm.Statement .readStatusRegister1 :=
  ⟨rfl, .readStatusRegister1, _, rfl, rfl, rfl⟩

theorem EncodingForm.writeEnable : EncodingForm.Statement .writeEnable :=
  ⟨rfl, .writeEnable, _, rfl, rfl, rfl⟩

theorem EncodingForm.sectorErase (x : Addr) : EncodingForm.Statement (.sectorErase x) :=
  ⟨rfl, .sectorErase, _, rfl, rfl, rfl⟩

theorem EncodingForm.blockErase32K (x : Addr) : EncodingForm.Statement (.blockErase32K x) :=
  ⟨rfl, .blockErase32K, _, rfl, rfl, rfl⟩

theorem EncodingForm.uniqueId : EncodingForm.Statement .uniqueId :=
  ⟨rfl, .uniqueId, _, rfl, rfl, rfl⟩

theorem EncodingForm.blockErase64K (x : Addr) : EncodingForm.Statement (.blockErase64K x) :=
  ⟨rfl, .blockErase64K, _, rfl, rfl, rfl⟩

theorem EncodingForm.chipErase : EncodingForm.Statement .chipErase :=
  ⟨rfl, .chipErase, _, rfl, rfl, rfl⟩

theorem EncodingForm.enableReset : EncodingForm.Statement .enableReset :=
  ⟨rfl, .enableReset, _, rfl, rfl, rfl⟩

theorem EncodingForm.reset : EncodingForm.Statement .reset :=
  ⟨rfl, .reset, _, rfl, rfl, rfl⟩

theorem EncodingForm.powerDown : EncodingForm.Statement .powerDown :=
  ⟨rfl, .powerDown, _, rfl, rfl, rfl⟩

theorem EncodingForm.releasePowerDown : EncodingForm.Statement .releasePowerDown :=
  ⟨rfl, .releasePowerDown, _, rfl, rfl, rfl⟩

theorem EncodingForm.hostRead (a n : Word) : EncodingForm.Statement (.hostRead a n) :=
  ⟨_, rfl, HostOp.request_reserved .., HostOp.request_op ..⟩

theorem EncodingForm.hostWrite (a : Word) (data : List Byte) : EncodingForm.Statement (.hostWrite a data) :=
  ⟨_, rfl, HostOp.request_reserved .., HostOp.request_op ..⟩

theorem EncodingForm.hostErase (first last : Word) : EncodingForm.Statement (.hostErase first last) :=
  ⟨_, rfl, HostOp.request_reserved .., HostOp.request_op ..⟩

theorem EncodingForm.hostDeviceId (a b : Word) : EncodingForm.Statement (.hostDeviceId a b) :=
  ⟨_, rfl, HostOp.request_reserved .., HostOp.request_op ..⟩

theorem EncodingForm.hostReset (a b : Word) : EncodingForm.Statement (.hostReset a b) :=
  ⟨_, rfl, HostOp.request_reserved .., HostOp.request_op ..⟩

theorem EncodingForm.hostCapacity (a b : Word) : EncodingForm.Statement (.hostCapacity a b) :=
  ⟨_, rfl, HostOp.request_reserved .., HostOp.request_op ..⟩

theorem EncodingForm.hostEraseSector (a b : Word) : EncodingForm.Statement (.hostEraseSector a b) :=
  ⟨_, rfl, HostOp.request_reserved .., HostOp.request_op ..⟩

theorem EncodingForm.hostEraseBlock32K (a b : Word) : EncodingForm.Statement (.hostEraseBlock32K a b) :=
  ⟨_, rfl, HostOp.request_reserved .., HostOp.request_op ..⟩

theorem EncodingForm.hostEraseBlock64K (a b : Word) : EncodingForm.Statement (.hostEraseBlock64K a b) :=
  ⟨_, rfl, HostOp.request_reserved .., HostOp.request_op ..⟩

theorem EncodingForm.hostEraseChip (a b : Word) : EncodingForm.Statement (.hostEraseChip a b) :=
  ⟨_, rfl, HostOp.request_reserved .., HostOp.request_op ..⟩

theorem EncodingForm.hostPowerDown (a b : Word) : EncodingForm.Statement (.hostPowerDown a b) :=
  ⟨_, rfl, HostOp.request_reserved .., HostOp.request_op ..⟩

theorem EncodingForm.hostReleasePowerDown (a b : Word) : EncodingForm.Statement (.hostReleasePowerDown a b) :=
  ⟨_, rfl, HostOp.request_reserved .., HostOp.request_op ..⟩

theorem EncodingForm.hostWaitIdle (a b : Word) : EncodingForm.Statement (.hostWaitIdle a b) :=
  ⟨_, rfl, HostOp.request_reserved .., HostOp.request_op ..⟩

theorem EncodingForm.hostUnassigned0 (a b : Word) : EncodingForm.Statement (.hostUnassigned0 a b) :=
  ⟨_, rfl, HostOp.request_reserved .., HostOp.request_op ..⟩

theorem EncodingForm.hostUnassignedE (a b : Word) : EncodingForm.Statement (.hostUnassignedE a b) :=
  ⟨_, rfl, HostOp.request_reserved .., HostOp.request_op ..⟩

theorem EncodingForm.hostUnassignedF (a b : Word) : EncodingForm.Statement (.hostUnassignedF a b) :=
  ⟨_, rfl, HostOp.request_reserved .., HostOp.request_op ..⟩

end Sys2Proof.Laws
end

