-- ==== Sys2Proof/Tests/Slice0.lean ====
section
/-! SUPPORT. The model's own tests: ill-formed instructions are refused by WellFormed, words written out from the spec
decode to what they stand for, single steps give the values of spec/95_test_vectors.md, and every hypothesis of the
statements is met by a concrete state. -/

namespace Sys2Proof.Tests

open Sys2Proof Sys2Proof.Machine

/-! ### Helpers -/

/-- A choice of the environment: the exchange is answered Ok and nothing completes. -/
def okay : BusChoice := ⟨none, false, false, false, [], false, false, [], none, false, false⟩

/-- The operation in flight completes before the exchange. -/
def completes : BusChoice := { okay with done := true }

/-- The received bytes that are free. -/
def sends (bytes : List Byte) : BusChoice := { okay with bytes := bytes }

/-- The exchange is answered Err. -/
def fails : BusChoice := { okay with err := some ⟨7⟩ }

/-- An idle chip that holds the cells. -/
def chipOf (cells : Memory) : Chip := ⟨cells, false, false, none, false, false, #v[0x11, 0x22, 0x33, 0x44, 0x55, 0x66, 0x77, 0x88]⟩

/-- The block in IDLE over an idle chip whose bytes are all 0xFF. -/
def idle : State := { State.reset with chip := chipOf [] }

/-- The block in CTLFAULT. -/
def ctlFaulted : State := { idle with phase := .ctlFault }

/-- The block at site L in the procedure of op, its response awaited, with the environment's next choice. -/
def site (L : Phase) (op : HostOp) (c : BusChoice) : State :=
  { idle with phase := L, op := op, script := [c], awaiting := true }

/-- The site with the exchange of the phase outstanding. -/
def live (L : Phase) (op : HostOp) (e : Exchange) (c : BusChoice) : State := { site L op c with bus := some e }

/-- A chip that is busy with the operation. -/
def busyWith (op : ChipOp) : Chip := { chipOf [] with busy := true, wel := true, inflight := some op }

/-- What f sees in the next state; none where there is none. -/
def seen {α : Type} (f : State → α) : Host.Outcome State Fault Refusal → Option α
  | .next s => some (f s)
  | .fault _ => none
  | .refused _ => none

/-- The last response's result, value and data. -/
def answer (s : State) : ResultCode × Word × List Byte × Option Payload := (s.result, s.value, s.rdata, s.payload)

/-- The phase, and the bytes of the outstanding exchange with its receive count. -/
def asks (s : State) : Phase × Option (List Byte × Nat) := (s.phase, s.bus.map (fun e => (e.tx, e.n)))

/-! ### WellFormed refuses (R121, R122, R125, R126, R128, R21) -/

theorem test_wf_pageProgram_past_page : ¬ (Instr.pageProgram 0x0000FF [0, 0]).WellFormed := by decide
theorem test_wf_pageProgram_past_capacity : ¬ (Instr.pageProgram 0x400000 [0]).WellFormed := by decide
theorem test_wf_readData_past_capacity : ¬ (Instr.readData 0x3FFFFF 2).WellFormed := by decide
theorem test_wf_sectorErase_misaligned : ¬ (Instr.sectorErase 0x000800).WellFormed := by decide
theorem test_wf_sectorErase_past_capacity : ¬ (Instr.sectorErase 0x400000).WellFormed := by decide
theorem test_wf_blockErase32K_misaligned : ¬ (Instr.blockErase32K 0x001000).WellFormed := by decide
theorem test_wf_blockErase32K_past_capacity : ¬ (Instr.blockErase32K 0x400000).WellFormed := by decide
theorem test_wf_blockErase64K_misaligned : ¬ (Instr.blockErase64K 0x008000).WellFormed := by decide
theorem test_wf_blockErase64K_past_capacity : ¬ (Instr.blockErase64K 0x400000).WellFormed := by decide
theorem test_wf_hostWrite_too_long (a : Word) (data : List Byte) (h : data.length = 2 ^ 32) :
    ¬ (Instr.hostWrite a data).WellFormed := by
  simp [Instr.WellFormed, Instr.wf, h]

/-! ### Words of the spec decode (30_encoding.md R91, R94, R100, R102; 95_test_vectors.md L1, L2.1, L3) -/

/-- The wire frames, each written out from its row of R91 and its example. -/
theorem test_decode_wire_frames :
    decodeExchange ⟨.w, [0x02, 0x3F, 0xFF, 0x00, 0xAA], 0⟩ = .ok (.pageProgram 0x3FFF00 [0xAA]) ∧
    decodeExchange ⟨.wr, [0x03, 0x40, 0x00, 0x00], 0⟩ = .ok (.readData 0x400000 0) ∧
    decodeExchange ⟨.x, [0x05, 0x00], 2⟩ = .ok .readStatusRegister1 ∧
    decodeExchange ⟨.w, [0x06], 0⟩ = .ok .writeEnable ∧
    decodeExchange ⟨.w, [0x20, 0x3F, 0xF0, 0x00], 0⟩ = .ok (.sectorErase 0x3FF000) ∧
    decodeExchange ⟨.w, [0x52, 0x3F, 0x80, 0x00], 0⟩ = .ok (.blockErase32K 0x3F8000) ∧
    decodeExchange ⟨.x, [0x4B, 0, 0, 0, 0, 0, 0, 0, 0, 0, 0, 0, 0], 13⟩ = .ok .uniqueId := by decide

theorem test_decode_wire_frames_2 :
    decodeExchange ⟨.w, [0xD8, 0x01, 0x00, 0x00], 0⟩ = .ok (.blockErase64K 0x010000) ∧
    decodeExchange ⟨.w, [0xC7], 0⟩ = .ok .chipErase ∧
    decodeExchange ⟨.w, [0x66], 0⟩ = .ok .enableReset ∧
    decodeExchange ⟨.w, [0x99], 0⟩ = .ok .reset ∧
    decodeExchange ⟨.w, [0xB9], 0⟩ = .ok .powerDown ∧
    decodeExchange ⟨.w, [0xAB], 0⟩ = .ok .releasePowerDown := by decide

/-- The host requests, each W0 written out from R100 and R102. -/
theorem test_decode_requests :
    decodeRequest ⟨0x00000001, 0x00000064, 0x0000012C, []⟩ = .ok (.hostRead 100 300) ∧
    decodeRequest ⟨0x00000002, 0x00000200, 0x00000004, [0xDE, 0xAD, 0xBE, 0xEF]⟩ =
      .ok (.hostWrite 0x200 [0xDE, 0xAD, 0xBE, 0xEF]) ∧
    decodeRequest ⟨0x00000003, 0x00001000, 0x00003000, []⟩ = .ok (.hostErase 0x1000 0x3000) ∧
    decodeRequest ⟨0x00000004, 0, 0, []⟩ = .ok (.hostDeviceId 0 0) ∧
    decodeRequest ⟨0x00000005, 0, 0, []⟩ = .ok (.hostReset 0 0) ∧
    decodeRequest ⟨0x00000006, 0, 0, []⟩ = .ok (.hostCapacity 0 0) ∧
    decodeRequest ⟨0x00000007, 5, 0, []⟩ = .ok (.hostEraseSector 5 0) ∧
    decodeRequest ⟨0x00000008, 3, 0, []⟩ = .ok (.hostEraseBlock32K 3 0) := by decide

theorem test_decode_requests_2 :
    decodeRequest ⟨0x00000009, 63, 0, []⟩ = .ok (.hostEraseBlock64K 63 0) ∧
    decodeRequest ⟨0x0000000A, 0, 0, []⟩ = .ok (.hostEraseChip 0 0) ∧
    decodeRequest ⟨0x0000000B, 0, 0, []⟩ = .ok (.hostPowerDown 0 0) ∧
    decodeRequest ⟨0x0000000C, 0, 0, []⟩ = .ok (.hostReleasePowerDown 0 0) ∧
    decodeRequest ⟨0x0000000D, 0, 0, []⟩ = .ok (.hostWaitIdle 0 0) ∧
    decodeRequest ⟨0x00000000, 0, 0, []⟩ = .ok (.hostUnassigned0 0 0) ∧
    decodeRequest ⟨0x0000000E, 0, 0, []⟩ = .ok (.hostUnassignedE 0 0) ∧
    decodeRequest ⟨0x0000000F, 0, 0, []⟩ = .ok (.hostUnassignedF 0 0) := by decide

/-- L1.10: the address of a program is sent most-significant byte first. -/
theorem test_frame_is_big_endian : (Exchange.pageProgram 0x123456 []).tx = [0x02, 0x12, 0x34, 0x56] := by decide

/-- R95, R134, L2.9: what has no meaning is rejected by name. -/
theorem test_decode_rejects :
    decodeExchange ⟨.w, [0x01], 0⟩ = .error (.unknownOpcode 0x01) ∧
    decodeExchange ⟨.w, [], 0⟩ = .error .emptyFrame ∧
    decodeExchange ⟨.x, [0x06], 1⟩ = .error (.wrongShape .writeEnable) ∧
    decodeExchange ⟨.w, [0x66, 0x99], 0⟩ = .error (.wrongFrame .enableReset) ∧
    decodeExchange ⟨.w, [0x20, 0x00, 0x10], 0⟩ = .error (.wrongFrame .sectorErase) ∧
    decodeRequest ⟨0x00000012, 0, 0, []⟩ = .error (.reservedBits 0x00000012) ∧
    decodeRequest ⟨0x00000002, 0, 3, [1, 2]⟩ = .error (.wrongDataLength .write) ∧
    decodeRequest ⟨0x00000001, 0, 1, [1]⟩ = .error (.wrongDataLength .read) := by decide

/-! ### Host requests (95_test_vectors.md L1.1 to L1.4, L2.5 to L2.9) -/

theorem test_read_at_capacity :
    seen asks (exec (.hostRead 0x400000 0) idle) = some (.sRd, some ([0x03, 0x40, 0x00, 0x00], 0)) := by decide
theorem test_read_past_capacity_unbounded :
    seen answer (exec (.hostRead 0xFFFFFFFF 1) idle) = some (.outOfBounds, 0, [], none) := by decide
theorem test_write_first_chunk :
    seen (fun s => (asks s, s.chunk)) (exec (.hostWrite 255 [1, 2]) idle) = some ((.sWe, some ([0x06], 0)), 1) := by decide
theorem test_write_past_capacity :
    seen answer (exec (.hostWrite 0x400000 [0]) idle) = some (.outOfBounds, 0, [], none) := by decide
theorem test_erase_misaligned_before_order :
    seen answer (exec (.hostErase 0x2001 0x1000) idle) = some (.notAligned, 0, [], none) := by decide
theorem test_erase_empty_at_capacity :
    seen (fun s => (answer s, s.trace.length)) (exec (.hostErase 0x400000 0x400000) idle) =
      some ((.ok, 0, [], none), 0) := by decide
theorem test_deviceId_frame :
    seen asks (exec (.hostDeviceId 9 9) idle) =
      some (.sId, some ([0x4B, 0, 0, 0, 0, 0, 0, 0, 0, 0, 0, 0, 0], 13)) := by decide
theorem test_reset_sends_enable_first :
    seen asks (exec (.hostReset 0 0) idle) = some (.sRstEn, some ([0x66], 0)) := by decide
theorem test_capacity_value :
    seen answer (exec (.hostCapacity 0 0) idle) = some (.ok, 0x00400000, [], none) := by decide
theorem test_capacity_in_ctlFault :
    seen (fun s => (answer s, s.phase)) (exec (.hostCapacity 0 0) ctlFaulted) =
      some ((.controlLineError, 0, [], none), .ctlFault) := by decide
theorem test_eraseSector_last : seen asks (exec (.hostEraseSector 1023 0) idle) = some (.sWe, some ([0x06], 0)) := by decide
theorem test_eraseSector_past : seen answer (exec (.hostEraseSector 1024 0) idle) = some (.outOfBounds, 0, [], none) := by
  decide
theorem test_eraseBlock32K_past : seen answer (exec (.hostEraseBlock32K 128 0) idle) = some (.outOfBounds, 0, [], none) := by
  decide
theorem test_eraseBlock64K_past : seen answer (exec (.hostEraseBlock64K 64 0) idle) = some (.outOfBounds, 0, [], none) := by
  decide
theorem test_eraseChip_any_operands :
    seen asks (exec (.hostEraseChip 0xFFFFFFFF 1) idle) = some (.sWe, some ([0x06], 0)) := by decide
theorem test_powerDown_frame : seen asks (exec (.hostPowerDown 0 0) idle) = some (.sPd, some ([0xB9], 0)) := by decide
theorem test_releasePowerDown_frame :
    seen asks (exec (.hostReleasePowerDown 0 0) idle) = some (.sRpd, some ([0xAB], 0)) := by decide
theorem test_waitIdle_frame : seen asks (exec (.hostWaitIdle 0 0) idle) = some (.sPoll, some ([0x05, 0x00], 2)) := by decide
theorem test_unassigned0 : seen answer (exec (.hostUnassigned0 1 2) idle) = some (.unsupported, 0, [], none) := by decide
theorem test_unassignedE_in_ctlFault :
    seen answer (exec (.hostUnassignedE 0 0) ctlFaulted) = some (.controlLineError, 0, [], none) := by decide
theorem test_unassignedF : seen answer (exec (.hostUnassignedF 0 0) idle) = some (.unsupported, 0, [], none) := by decide

/-! ### Wire commands (95_test_vectors.md L1.5, L1.6, L1.9, L2.2 to L2.4, L2.7, L2.8) -/

/-- The gate under CFG0 reads the status after WriteEnable (L2.2). -/
theorem test_writeEnable_then_status :
    seen (fun s => (asks s, s.chip.wel)) (exec .writeEnable (site .sWe .eraseSector okay)) =
      some ((.sWeRs, some ([0x05, 0x00], 2)), true) := by decide

/-- The gate under CFG1 sends the command at once: sector 5's erase (L2.2, L1.5). -/
theorem test_writeEnable_without_verify :
    seen asks (exec .writeEnable
      { site .sWe .eraseSector okay with a := 5, params := { Params.cfg0 with verifyWe := false } }) =
      some (.sSe, some ([0x20, 0x00, 0x50, 0x00], 0)) := by decide

/-- L2.2: with WEL = 0 the gate fails and nothing is sent. -/
theorem test_gate_fails_without_latch :
    seen (fun s => (answer s, s.trace.length)) (exec .readStatusRegister1 (site .sWeRs .write okay)) =
      some ((.writeEnableFail, 0, [], none), 0) := by decide

/-- L2.3: BUSY = 1 with POLL_LIMIT(IDLE) = some 2 and one read done: Timeout. -/
theorem test_poll_times_out :
    seen (fun s => (answer s, s.pollcnt)) (exec .readStatusRegister1
      { site .sPoll .waitIdle okay with
        pollcnt := 1, chip := { chipOf [] with busy := true }
        params := { Params.cfg0 with pollLimit := { Params.cfg0.pollLimit with idle := some 2 } } }) =
      some ((.timeout, 0, [], none), 2) := by decide

/-- R74: a program is accepted with the latch; its poll follows. -/
theorem test_pageProgram_starts :
    seen (fun s => (asks s, s.chip.busy, s.chip.inflight)) (exec (.pageProgram 0x0000FE [0xDE, 0xAD])
      { site .sPp .write okay with chip := { chipOf [] with wel := true } }) =
      some ((.sPoll, some ([0x05, 0x00], 2)), true, some (.program 0xFE [0xDE, 0xAD])) := by decide

/-- L1.9: over bytes that were not erased the completed program holds the AND; the WRITE answers OK. -/
theorem test_program_ands :
    seen (fun s => (answer s, Memory.readRange s.chip.arr 0x200 4)) (exec .readStatusRegister1
      { site .sPoll .write completes with
        wbuf := [0xDE, 0xAD, 0xBE, 0xEF], cur := 0x200, chunk := 4
        chip := { chipOf [(0x200, 0x0F), (0x201, 0x0F), (0x202, 0x0F), (0x203, 0x0F)] with
          busy := true, wel := true, inflight := some (.program 0x200 [0xDE, 0xAD, 0xBE, 0xEF]) } }) =
      some ((.ok, 0, [], none), [0x0E, 0x0D, 0x0E, 0x0F]) := by decide

/-- R74, 93 I8: with no data BUSY and WEL are the environment's, without the latch too. -/
theorem test_pageProgram_without_data :
    seen (fun s => (s.chip.busy, s.chip.wel, s.chip.arr)) (exec (.pageProgram 0x400000 [])
      (site .sPp .write { okay with busy := true, wel := true })) = some (true, true, []) := by decide

/-- R74, R259: the completion of a program with no data may leave WEL set; that of an erase clears it (R75). -/
theorem test_completion_of_no_data_may_keep_wel :
    ((busyWith (.program 0x10 [])).complete { okay with latchKept := true }).wel = true ∧
    ((busyWith (.erase 0 4096)).complete { okay with latchKept := true }).wel = false := by decide

/-- R250, R262: a block reset that drops a request leaves its response awaited, and the run has not ended. -/
theorem test_run_not_ended_by_block_reset :
    seen (fun s => (s.phase, s.runEnded)) (step
      { live .sPoll .erase Exchange.readStatusRegister1 okay with resetIn := [.reset true] }) = some (.idle, false) := by decide

/-- R262: the run has ended when the last request is answered. -/
theorem test_run_ended_by_response :
    seen State.runEnded (step { idle with offers := [⟨6, 0, 0, []⟩] }) = some true := by decide

theorem test_readData_answers_the_array :
    seen answer (exec (.readData 0x3FFFFE 2) { site .sRd .read okay with chip := chipOf [(0x3FFFFF, 0x5A)] }) =
      some (.ok, 0, [0xFF, 0x5A], none) := by decide

/-- L2.4: a byte read back wrong ends the request. -/
theorem test_readback_mismatch :
    seen answer (exec (.readData 0 1)
      { site .sVfy .write okay with wbuf := [0xF0], chunk := 1, chip := chipOf [(0, 0x00)] }) =
      some (.readbackFail, 0, [], none) := by decide

/-- L1.5: the erase of sector 5. -/
theorem test_sectorErase_starts :
    seen (fun s => s.chip.inflight) (exec (.sectorErase 0x005000)
      { site .sSe .eraseSector okay with chip := { chipOf [] with wel := true } }) =
      some (some (.erase 0x5000 4096)) := by decide

/-- R75: without the latch the erase is ignored. -/
theorem test_sectorErase_without_latch :
    seen (fun s => (s.phase, s.chip.busy)) (exec (.sectorErase 0x005000) (site .sSe .eraseSector okay)) =
      some (.sPoll, false) := by decide
theorem test_blockErase32K_starts :
    seen (fun s => s.chip.inflight) (exec (.blockErase32K 0x018000)
      { site .sBe32 .eraseBlock32K okay with chip := { chipOf [] with wel := true } }) =
      some (some (.erase 0x18000 32768)) := by decide
theorem test_blockErase64K_starts :
    seen (fun s => s.chip.inflight) (exec (.blockErase64K 0x3F0000)
      { site .sBe64 .eraseBlock64K okay with chip := { chipOf [] with wel := true } }) =
      some (some (.erase 0x3F0000 65536)) := by decide
theorem test_chipErase_starts :
    seen (fun s => s.chip.inflight) (exec .chipErase
      { site .sCe .eraseChip okay with chip := { chipOf [] with wel := true } }) =
      some (some (.erase 0 4194304)) := by decide

/-- L2.8: the identifier is bytes 5 to 12 of what is received. -/
theorem test_uniqueId_answers :
    seen answer (exec .uniqueId (site .sId .deviceId (sends [0xFF, 0xFF, 0xFF, 0xFF, 0xFF]))) =
      some (.ok, 0, [0x11, 0x22, 0x33, 0x44, 0x55, 0x66, 0x77, 0x88], none) := by decide

/-- L1.8: Reset follows EnableReset as an exchange of its own. -/
theorem test_enableReset_then_reset :
    seen asks (exec .enableReset (site .sRstEn .reset okay)) = some (.sRst, some ([0x99], 0)) := by decide

/-- L1.8: EnableReset answered Err: Reset is not sent. -/
theorem test_enableReset_fails :
    seen (fun s => (answer s, s.trace.length)) (exec .enableReset (site .sRstEn .reset fails)) =
      some ((.transportError, 0, [], some ⟨7⟩), 0) := by decide
theorem test_reset_answers : seen answer (exec .reset (site .sRst .reset okay)) = some (.ok, 0, [], none) := by decide
theorem test_powerDown_answers :
    seen (fun s => (answer s, s.chip.poweredDown)) (exec .powerDown (site .sPd .powerDown okay)) =
      some ((.ok, 0, [], none), true) := by decide
theorem test_releasePowerDown_wakes :
    seen (fun s => (answer s, s.chip.poweredDown)) (exec .releasePowerDown
      { site .sRpd .releasePowerDown okay with chip := { chipOf [] with poweredDown := true } }) =
      some ((.ok, 0, [], none), false) := by decide

/-- R146, R185: after sector 1 of ERASE 0x1000, 0x3000 the gate of sector 2 follows. -/
theorem test_erase_goes_on :
    seen (fun s => (asks s, s.unit)) (exec .readStatusRegister1 { site .sPoll .erase okay with unit := 1, unitEnd := 3 }) =
      some ((.sWe, some ([0x06], 0)), 2) := by decide

/-- L2.6: after the 1 byte at 255 the chunk at 0x100 follows. -/
theorem test_write_goes_on :
    seen (fun s => (asks s, s.cur, s.pos, s.chunk)) (exec .readStatusRegister1
      { site .sPoll .write okay with a := 255, cur := 255, wbuf := [1, 2], chunk := 1 }) =
      some ((.sWe, some ([0x06], 0)), 0x100, 1, 1) := by decide

/-- L2.4: 65 bytes are read back 64 first, then 1. -/
theorem test_readback_next_chunk :
    seen asks (exec (.readData 0 64)
      { site .sVfy .write okay with wbuf := List.replicate 65 0xFF, chunk := 65 }) =
      some (.sVfy, some ([0x03, 0x00, 0x00, 0x40], 1)) := by decide

/-! ### Witnesses: what meets the hypotheses of the statements, clause by clause -/

theorem witness_DecodeInvertsEncode :
    (Instr.pageProgram 0x0000FE [1, 2]).WellFormed ∧ (Instr.readData 0x400000 0).WellFormed ∧
    (Instr.sectorErase 0x3FF000).WellFormed ∧ (Instr.blockErase32K 0x3F8000).WellFormed ∧
    (Instr.blockErase64K 0x3F0000).WellFormed ∧ (Instr.hostWrite 0xFFFFFFFF [1]).WellFormed := by decide

theorem witness_EncodeInvertsDecode :
    decode (.exchange ⟨.wr, [0x03, 0x3F, 0xFF, 0xFF], 1⟩) = .ok (.readData 0x3FFFFF 1) ∧
    decode (.request ⟨0xF, 0xFFFFFFFF, 0, []⟩) = .ok (.hostUnassignedF 0xFFFFFFFF 0) := by decide

theorem witness_StepRunsTheDecodedInstruction :
    (let s := { idle with offers := [⟨6, 0, 0, []⟩] }
     s.noReset ∧ s.phase.accepts = true ∧ s.offers = ⟨6, 0, 0, []⟩ :: [] ∧ decodeRequest ⟨6, 0, 0, []⟩ = .ok (.hostCapacity 0 0)) ∧
    (let s := live .sRd .read ⟨.wr, [0x03, 0, 0, 0], 1⟩ okay
     s.noReset ∧ s.phase.accepts = false ∧ s.bus = some ⟨.wr, [0x03, 0, 0, 0], 1⟩ ∧
     decodeExchange ⟨.wr, [0x03, 0, 0, 0], 1⟩ = .ok (.readData 0 1)) := by decide

theorem witness_StepWaitsForARequest :
    { idle with resetIn := [.run] }.noReset ∧ idle.phase.accepts = true ∧ idle.offers = [] := by decide

theorem witness_StepRefusesWhatIsNoRequest :
    idle.noReset ∧ idle.phase.accepts = true ∧ (0x12 : Word).extractLsb' 4 28 ≠ 0#28 ∧
    [(1 : Byte), 2].length ≠ (3 : Word).toNat ∧ ((1 : Word) ≠ 2 ∧ [(1 : Byte)] ≠ []) := by decide

theorem witness_BlockResetLeavesTheStatedValues :
    (∃ t, step { live .sPoll .erase Exchange.readStatusRegister1 okay with resetIn := [.reset true] } = .next t) ∧
    (∃ t, step { idle with resetIn := [.reset false] } = .next t) := ⟨⟨_, rfl⟩, ⟨_, rfl⟩⟩

theorem witness_BlockResetDropsTheRequest :
    idle.bus = none ∧ (live .sCe .eraseChip Exchange.chipErase okay).awaiting = true ∧
    (live .sCe .eraseChip Exchange.chipErase okay).bus = some Exchange.chipErase ∧
    decodeExchange Exchange.chipErase = .ok .chipErase := by decide

theorem witness_CtlFaultAnswersEveryRequest :
    (Instr.hostErase 1 0).hostOp = some .erase ∧ (Instr.hostErase 1 0).WellFormed ∧ ctlFaulted.phase = .ctlFault ∧
    ∃ t, step { ctlFaulted with resetIn := [.reset true] } = .next t := ⟨rfl, rfl, rfl, _, rfl⟩

theorem witness_PortHoldsARequestWhileBusy :
    (Instr.hostRead 0 1).hostOp = some .read ∧ (Instr.hostRead 0 1).WellFormed ∧
    (site .sPoll .write okay).phase.accepts = false ∧
    ∃ t, step (live .sPoll .write Exchange.readStatusRegister1 okay) = .next t := ⟨rfl, rfl, rfl, _, rfl⟩

theorem witness_TransportErrorEndsTheRequest :
    ((site .sPp .write fails).outstanding (.pageProgram 0xFF [1]) = true ∧ (site .sPp .write fails).choice.err = some ⟨7⟩) ∧
    (site .sVfy .erase fails).outstanding (.readData 0x3FFFC0 64) = true ∧
    (site .sPoll .waitIdle fails).outstanding .readStatusRegister1 = true ∧
    (site .sBe64 .eraseBlock64K fails).outstanding (.blockErase64K 0x3F0000) = true ∧
    (site .sRst .reset fails).outstanding .reset = true := by decide

/-- The state of the host requests' statements: CAPACITY, the unassigned ops, WAIT_IDLE and every other request. -/
theorem witness_requests_in_idle : idle.phase = .idle := rfl

theorem witness_ResetIsTwoExchanges :
    ((site .sRstEn .reset okay).phase = .sRstEn ∧ (site .sRstEn .reset okay).op = .reset ∧
      (site .sRstEn .reset okay).choice.err = none) ∧
    ((site .sRst .reset okay).phase = .sRst ∧ (site .sRst .reset okay).choice.err = none) ∧
    (site .sRst .reset fails).choice.err = some ⟨7⟩ ∧ (site .sRstEn .reset fails).choice.err = some ⟨7⟩ := by decide

theorem witness_PowerDownIsOneExchange :
    (let s := site .sPd .powerDown okay
     s.phase = .sPd ∧ s.op = .powerDown ∧ s.choice.err = none ∧ s.chipNow.busy = false) ∧
    (let s := { site .sPd .powerDown okay with chip := busyWith (.erase 0 4096) }
     s.choice.err = none ∧ s.chipNow.busy = true) ∧
    (let s := { site .sPd .powerDown okay with chip := { chipOf [] with poweredDown := true } }
     s.choice.err = none ∧ s.chipNow.busy = false ∧ s.chipNow.poweredDown = true) ∧
    (site .sPd .powerDown fails).choice.err = some ⟨7⟩ := by decide

theorem witness_ReleasePowerDownIsOneExchange :
    (let s := site .sRpd .releasePowerDown okay
     s.phase = .sRpd ∧ s.op = .releasePowerDown ∧ s.choice.err = none) ∧
    (site .sRpd .releasePowerDown fails).choice.err = some ⟨7⟩ := by decide

theorem witness_DeviceIdReturnsTheLastEightBytes :
    (let s := site .sId .deviceId okay
     s.phase = .sId ∧ s.op = .deviceId ∧ s.choice.err = none ∧ s.chipNow.busy = false ∧ s.chipNow.poweredDown = false) ∧
    (site .sId .deviceId fails).choice.err = some ⟨7⟩ := by decide

theorem witness_ReadIsOneExchange :
    (0x3FFFFF : Word).toNat + (1 : Word).toNat ≤ 4194304 ∧
    (let s := site .sRd .read okay
     s.phase = .sRd ∧ s.op = .read ∧ (0x3FFFFF : Addr).toNat + 1 ≤ 4194304 ∧ s.choice.err = none ∧
       s.chipNow.busy = false ∧ s.chipNow.poweredDown = false) ∧
    (site .sRd .read fails).choice.err = some ⟨7⟩ := by decide

/-- The two clauses meet at CAPACITY: no data is in range there, one byte is not. -/
theorem witness_WriteStartsTheFirstChunk :
    idle.phase = .idle ∧ ([] : List Byte).length < 2 ^ 32 ∧ (0x400000 : Word).toNat + ([] : List Byte).length ≤ 4194304 ∧
    4194304 < (0x400000 : Word).toNat + [(0 : Byte)].length := by decide

/-- Each outcome of ERASE, on the values where its checks meet. -/
theorem witness_EraseChecksThenStartsTheFirstSector :
    idle.phase = .idle ∧ (0x1000 : Word).toNat % 4096 = 0 ∧ (0x1001 : Word).toNat % 4096 ≠ 0 ∧
    (0x1000 : Word).toNat < (0x2000 : Word).toNat ∧ 4194304 < (0x401000 : Word).toNat ∧
    ¬ 4194304 < (0x400000 : Word).toNat := by decide

theorem witness_CommandOfEachRequest :
    (site .sWe .write okay).op = .write ∧ (site .sWe .erase okay).op = .erase ∧
    (site .sWe .eraseSector okay).op = .eraseSector ∧ (site .sWe .eraseBlock32K okay).op = .eraseBlock32K ∧
    (site .sWe .eraseBlock64K okay).op = .eraseBlock64K ∧ (site .sWe .eraseChip okay).op = .eraseChip := by decide

theorem witness_WriteEnableSetsTheLatch :
    (let s := site .sWe .eraseSector okay
     s.phase = .sWe ∧ s.op.mutates = true ∧ s.choice.err = none ∧ s.chipNow.busy = false ∧
       s.chipNow.poweredDown = false ∧ s.params.verifyWe = true) ∧
    (let s := { site .sWe .write okay with
       chip := busyWith (.erase 0 4096), params := { Params.cfg0 with verifyWe := false } }
     s.op.mutates = true ∧ s.choice.err = none ∧ s.chipNow.busy = true ∧ s.params.verifyWe = false) := by decide

theorem witness_GateTestsTheLatch :
    (let s := site .sWeRs .write okay
     s.phase = .sWeRs ∧ s.op.mutates = true ∧ s.choice.err = none ∧ s.chipNow.poweredDown = false ∧
       s.chipNow.wel = false) ∧
    (let s := { site .sWeRs .write okay with chip := busyWith (.erase 0 4096) }
     s.choice.err = none ∧ s.chipNow.poweredDown = false ∧ s.chipNow.wel = true) := by decide

theorem witness_PageProgramStartsTheProgram :
    (0x3FFFFE : Addr).toNat % 256 + [(1 : Byte), 2].length ≤ 256 ∧
    (0x3FFFFE : Addr).toNat + [(1 : Byte), 2].length ≤ 4194304 ∧
    (let s := { site .sPp .write okay with chip := { chipOf [] with wel := true } }
     s.phase = .sPp ∧ s.op = .write ∧ s.choice.err = none ∧ s.chipNow.busy = false ∧ s.chipNow.poweredDown = false ∧
       s.chipNow.wel = true) ∧
    (site .sPp .write okay).chipNow.wel = false ∧
    ({ site .sPp .write okay with chip := busyWith (.erase 0 4096) }).chipNow.busy = true := by decide

theorem witness_EraseCommandsStartTheErase :
    (eraseRange (.sectorErase 0x3FF000) = some (.sSe, 0x3FF000, 4096) ∧ (site .sSe .erase okay).atSite .sSe = true) ∧
    (eraseRange (.blockErase32K 0x3F8000) = some (.sBe32, 0x3F8000, 32768) ∧
      (site .sBe32 .eraseBlock32K okay).atSite .sBe32 = true) ∧
    (eraseRange (.blockErase64K 0x3F0000) = some (.sBe64, 0x3F0000, 65536) ∧
      (site .sBe64 .eraseBlock64K okay).atSite .sBe64 = true) ∧
    (eraseRange .chipErase = some (.sCe, 0, 4194304) ∧ (site .sCe .eraseChip okay).atSite .sCe = true) ∧
    (site .sCe .eraseChip okay).choice.err = none := by decide

/-- Each stop at the first value that meets it. -/
theorem witness_CommandsOutsideTheArrayStop :
    4194304 < (0x3FFFFF : Addr).toNat + 2 ∧ 4194304 < (0x400000 : Addr).toNat + [(0 : Byte)].length ∧
    ((0xFF : Addr).toNat + [(0 : Byte), 0].length ≤ 4194304 ∧ 256 < (0xFF : Addr).toNat % 256 + [(0 : Byte), 0].length) ∧
    4194304 ≤ (0x400000 : Addr).toNat := by decide

theorem witness_PollTestsBusyThenTheLimit :
    (let s := site .sPoll .waitIdle okay
     s.phase = .sPoll ∧ s.op = .waitIdle ∧ s.choice.err = none ∧ s.chipNow.poweredDown = false ∧ s.chipNow.busy = false) ∧
    (let s := { site .sPoll .write okay with chip := busyWith (.erase 0 4096) }
     s.op.mutates = true ∧ s.choice.err = none ∧ s.chipNow.poweredDown = false ∧ s.chipNow.busy = true ∧
       s.params.pollLimit.limit s.op.pollKind = none) ∧
    (let s := { site .sPoll .write okay with
       params := { Params.cfg0 with pollLimit := { Params.cfg0.pollLimit with pp := some 2 } } }
     s.params.pollLimit.limit s.op.pollKind = some 2 ∧ s.pollcnt + 1 < 2 ∧ 2 ≤ { s with pollcnt := 1 }.pollcnt + 1) := by
  decide

theorem witness_ReadyLeadsToReadbackOrNextUnit :
    ((site .sPoll .waitIdle okay).phase = .sPoll ∧ (site .sPoll .waitIdle okay).op = .waitIdle) ∧
    ((site .sPoll .erase okay).op.mutates = true ∧ (site .sPoll .erase okay).params.readbackVerify = false) ∧
    (let s := { site .sPoll .write okay with params := { Params.cfg0 with readbackVerify := true } }
     s.op.mutates = true ∧ s.params.readbackVerify = true ∧ s.readbackSpan = some (0, 0) ∧
       { s with chunk := 1 }.readbackSpan = some (0, 1)) ∧
    ({ site .sPoll .erase okay with unit := 1023 }.readbackSpan = some (0x3FF000, 4096) ∧
      { site .sPoll .eraseSector okay with a := 1023 }.readbackSpan = some (0x3FF000, 4096) ∧
      { site .sPoll .eraseBlock32K okay with a := 127 }.readbackSpan = some (0x3F8000, 32768) ∧
      { site .sPoll .eraseBlock64K okay with a := 63 }.readbackSpan = some (0x3F0000, 65536) ∧
      (site .sPoll .eraseChip okay).readbackSpan = some (0, 4194304)) := by decide

theorem witness_ReadbackComparesWholeChunks :
    (let s := site .sVfy .eraseChip okay
     s.phase = .sVfy ∧ s.readbackSpan = some (0, 4194304) ∧ (0x3FFFC0 : Addr).toNat + 64 ≤ 4194304 ∧
       s.choice.err = none ∧ s.vpos.toNat < 4194304) ∧
    (let s := { site .sVfy .write okay with wbuf := [0xF0], chunk := 1 }
     s.phase = .sVfy ∧ s.readbackSpan = some (0, 1) ∧ s.choice.err = none ∧ s.vpos.toNat < 1) := by decide

/-- The last byte of the array, written alone; and a chunk that ends at a page's end with a byte left. -/
theorem witness_WriteGoesOnToTheNextChunk :
    (let s := { site .sPoll .write okay with a := 0x3FFFFF, cur := 0x3FFFFF, wbuf := [1], chunk := 1 }
     s.phase.accepts = false ∧ s.op = .write ∧ s.WriteRegs ∧ s.wbuf.length ≤ s.pos.toNat + s.chunk.toNat) ∧
    (let s := { site .sPoll .write okay with a := 255, cur := 255, wbuf := [1, 2], chunk := 1 }
     s.phase.accepts = false ∧ s.op = .write ∧ s.WriteRegs ∧ s.pos.toNat + s.chunk.toNat < s.wbuf.length) := by decide

theorem witness_EraseGoesOnToTheNextSector :
    (let s := { site .sPoll .erase okay with unit := 1023, unitEnd := 1024 }
     s.phase.accepts = false ∧ s.op = .erase ∧ s.unit.toNat < s.unitEnd.toNat ∧ s.unitEnd.toNat ≤ 1024) ∧
    (site .sPoll .eraseChip okay).op = .eraseChip := by decide

theorem witness_BusyChipIgnoresCommands :
    (busyWith (.erase 0 4096)).busy = true ∧ Instr.powerDown ≠ .reset := by decide

theorem witness_CompletionAppliesTheOperation :
    (busyWith (.program 0x3FFFFE [1, 2])).busy = true ∧ completes.done = true ∧ Memory.wf (chipOf [(5, 0)]).arr ∧
    (busyWith (.program 0x3FFFFE [1, 2])).inflight = some (.program 0x3FFFFE [1, 2]) ∧
    0x3FFFFE + [(1 : Byte), 2].length ≤ 4194304 ∧
    (busyWith (.erase 0x3FF000 4096)).inflight = some (.erase 0x3FF000 4096) ∧
    { chipOf [] with busy := true }.inflight = none := by decide

theorem witness_ProgramOverErasedReadsBack :
    Memory.wf [(0x1FF, 0)] ∧ 0x200 + [(1 : Byte), 2].length ≤ 4194304 ∧
    ∀ i, i < [(1 : Byte), 2].length → Memory.read [(0x1FF, 0)] (0x200 + i) = 0xFF := by decide

theorem witness_FrameOfEveryInstruction :
    (∃ t, exec .writeEnable (site .sWe .write okay) = .next t) ∧ Instr.writeEnable.hostOp = none ∧
    (∃ t, exec (.hostRead 0 1) idle = .next t) ∧ (Instr.hostRead 0 1).hostOp ≠ none :=
  ⟨⟨_, rfl⟩, rfl, ⟨_, rfl⟩, by decide⟩

theorem witness_MemoryChangesOnlyAtCompletion :
    let s := { site .sPoll .eraseSector completes with chip := busyWith (.erase 0 4096) }
    (∃ t, exec .readStatusRegister1 s = .next t) ∧ s.choice.err = none ∧ Memory.wf s.chip.arr ∧
    (Instr.readStatusRegister1 = .powerDown → s.chipNow.busy = true) ∧
    ∀ op, s.chip.busy = true → s.choice.done = true → s.chip.inflight = some op → op.covers 4096 = false :=
  ⟨⟨_, rfl⟩, rfl, by decide, by decide, fun op _ _ h => by cases h; decide⟩

theorem witness_MemoryChangesOnlyAtCompletion_powerDown :
    let s := { site .sPd .powerDown okay with chip := busyWith (.erase 0 4096) }
    (∃ t, exec .powerDown s = .next t) ∧ s.choice.err = none ∧ Memory.wf s.chip.arr ∧
    (Instr.powerDown = .powerDown → s.chipNow.busy = true) ∧
    ∀ op, s.chip.busy = true → s.choice.done = true → s.chip.inflight = some op → op.covers 0 = false :=
  ⟨⟨_, rfl⟩, rfl, by decide, by decide, fun op _ h _ => by cases h⟩

theorem witness_FrameOfTheStepRegisters :
    (∃ t, exec .uniqueId (site .sId .deviceId okay) = .next t) ∧ Instr.uniqueId.hostOp = none ∧
    Instr.uniqueId ≠ .readStatusRegister1 ∧ (site .sId .deviceId okay).phase.isCommand = false ∧
    (site .sId .deviceId okay).phase ≠ .sPoll ∧ (site .sId .deviceId okay).phase ≠ .sVfy :=
  ⟨⟨_, rfl⟩, rfl, by decide, rfl, by decide, by decide⟩

theorem witness_CommandsRunExactlyWhereOutstanding :
    Instr.chipErase.hostOp = none ∧ Instr.chipErase.WellFormed ∧
    (site .sCe .eraseChip okay).outstanding .chipErase = true ∧
    (site .sCe .eraseChip okay).outstanding .writeEnable = false := by decide

/-- A step from a state with the outputs high: what the statements about every step take. -/
theorem witness_steps :
    (∃ t, step (live .sRd .read ⟨.wr, [0x03, 0, 0, 0], 1⟩ okay) = .next t) ∧
    (live .sRd .read ⟨.wr, [0x03, 0, 0, 0], 1⟩ okay).holdN = true ∧
    (live .sRd .read ⟨.wr, [0x03, 0, 0, 0], 1⟩ okay).wpN = true ∧
    (live .sRd .read ⟨.wr, [0x03, 0, 0, 0], 1⟩ okay).noReset := ⟨⟨_, rfl⟩, rfl, rfl, by decide⟩

theorem witness_GatePrecedesEveryCommand :
    (∃ t, step { live .sWeRs .eraseChip Exchange.readStatusRegister1 okay with
      chip := { chipOf [] with wel := true } } = .next t ∧ t.phase.isCommand = true) ∧
    (∃ t, step { live .sWe .eraseChip Exchange.writeEnable okay with
      params := { Params.cfg0 with verifyWe := false } } = .next t ∧ t.phase.isCommand = true) :=
  ⟨⟨_, rfl, rfl⟩, ⟨_, rfl, rfl⟩⟩

theorem witness_PollFollowsEveryCommand :
    let s := live .sCe .eraseChip Exchange.chipErase okay
    (∃ t, step s = .next t) ∧ s.noReset ∧ s.phase.isCommand = true := ⟨⟨_, rfl⟩, by decide, rfl⟩

theorem witness_PollEndsOnlyWhenNotBusy :
    let s := live .sPoll .eraseChip Exchange.readStatusRegister1 okay
    (∃ t, step s = .next t) ∧ s.noReset ∧ s.phase = .sPoll ∧ s.chip.poweredDown = false :=
  ⟨⟨_, rfl⟩, by decide, rfl, rfl⟩

theorem witness_TimeoutNeedsABudget :
    let s := { live .sPoll .waitIdle Exchange.readStatusRegister1 okay with
      chip := busyWith (.erase 0 4096)
      params := { Params.cfg0 with pollLimit := { Params.cfg0.pollLimit with idle := some 1 } } }
    ∃ t, step s = .next t ∧ t.responses = s.responses ++ [⟨.timeout, 0, [], none⟩] := ⟨_, rfl, rfl⟩

/-- A state with the invariant while the last sector's erase is verified: every part of it says something there. -/
def verifying : State :=
  { live .sVfy .eraseSector ⟨.wr, [0x03, 0x3F, 0xFF, 0xC0], 64⟩ okay with
    a := 1023, vpos := 4032, params := { Params.cfg0 with readbackVerify := true } }

theorem verifying_inv : verifying.Inv :=
  ⟨by decide, by decide, by decide, by decide, by decide, by decide, by decide, by decide, by decide, by decide⟩

theorem idle_inv : idle.Inv :=
  ⟨by decide, by decide, by decide, by decide, by decide, by decide, by decide, by decide, by decide, by decide⟩

theorem witness_EveryStepKeepsTheInvariant : verifying.Inv ∧ ∃ t, step verifying = .next t := ⟨verifying_inv, _, rfl⟩

theorem witness_InvariantStepAnswers :
    verifying.Inv ∧
    ∀ r rest, verifying.phase.accepts = true → verifying.offers = r :: rest → ∃ i, decodeRequest r = .ok i :=
  ⟨verifying_inv, fun _ _ h => absurd h (by decide)⟩

theorem witness_OutstandingExchangeIsWellFormed :
    verifying.Inv ∧ verifying.bus = some ⟨.wr, [0x03, 0x3F, 0xFF, 0xC0], 64⟩ := ⟨verifying_inv, rfl⟩

theorem witness_EveryStepKeepsTheMemoryForm :
    Memory.wf verifying.chip.arr ∧ ∃ t, step verifying = .next t := ⟨by decide, _, rfl⟩

end Sys2Proof.Tests
end

namespace Sys2Proof.Machine

open Config

/-! ## Chip and block reset: what they keep -/

/-- No reaction of the chip changes its identifier (R78). -/
@[simp] theorem Chip.react_uid (i : Instr) (c : BusChoice) (ch : Chip) : (Chip.react i c ch).1.uid = ch.uid := by
  have command : ∀ (n : Nat) (effect : Chip → Chip × List Byte), (effect ch).1.uid = ch.uid →
      (Chip.command n effect c ch).1.uid = ch.uid :=
    fun n effect he => Chip.command_keeps (P := fun k => k.uid = ch.uid) n effect c rfl he
  cases i with
  | pageProgram x d =>
    refine command 0 _ ?_
    split
    · rfl
    · split <;> rfl
  | sectorErase x | blockErase32K x | blockErase64K x | chipErase =>
    refine command 0 _ ?_
    split <;> rfl
  | readData x n => exact command n _ rfl
  | writeEnable | enableReset | powerDown => exact command 0 _ rfl
  | uniqueId => exact command idFrameLen _ rfl
  | readStatusRegister1 =>
    simp only [Chip.react, Chip.readStatusRegister1]
    split <;> rfl
  | releasePowerDown =>
    simp only [Chip.react, Chip.releasePowerDown]
    split <;> rfl
  | _ => rfl

/-- A block reset ends the outstanding exchange in one of two ways: nothing happened, or the chip carried it out and its
choices are used up (R250). -/
theorem abandonExchange_cases (s : State) :
    (s.bus = none ∧ s.abandonExchange = s) ∨
      ∃ ch, s.abandonExchange = { s.consume with chip := ch } ∧
        (ch = s.chip ∨ ∃ i, ch = (Chip.react i s.choice s.chipNow).1) := by
  unfold State.abandonExchange
  split
  next hb => exact .inl ⟨hb, rfl⟩
  next e hb =>
    refine .inr ?_
    split
    · exact ⟨s.chip, rfl, .inl rfl⟩
    · split
      next i hd => exact ⟨_, rfl, .inr ⟨i, rfl⟩⟩
      next => exact ⟨s.chip, rfl, .inl rfl⟩

theorem abandonExchange_wf {s : State} (h : Memory.wf s.chip.arr) : Memory.wf s.abandonExchange.chip.arr := by
  rcases abandonExchange_cases s with ⟨-, ha⟩ | ⟨ch, ha, rfl | ⟨i, rfl⟩⟩ <;> rw [ha]
  · exact h
  · exact h
  · exact Chip.react_wf i _ (Chip.settle_wf _ h)

/-! ## The invariant between two exchanges -/

/-- What the invariant says of a request in progress whatever its site: the ranges of the registers of WRITE, ERASE and
the per-unit erases, the outputs, the memory and the awaited response. The continuations run from such a state. -/
structure State.Serving (s : State) : Prop where
  lines  : s.LinesHigh
  memory : Memory.wf s.chip.arr
  awaits : s.awaiting = true
  write  : s.op = .write →
    s.cur.toNat = s.a.toNat + s.pos.toNat ∧ s.a.toNat + s.wbuf.length ≤ capacity ∧ s.pos.toNat ≤ s.wbuf.length ∧
      s.chunk.toNat = min (pageSize - s.cur.toNat % pageSize) (s.wbuf.length - s.pos.toNat)
  erase  : s.op = .erase → s.unit.toNat < s.unitEnd.toNat ∧ s.unitEnd.toNat ≤ nSectors
  unit   : (s.op = .eraseSector → s.a.toNat < nSectors) ∧ (s.op = .eraseBlock32K → s.a.toNat < nBlocks32K) ∧
      (s.op = .eraseBlock64K → s.a.toNat < nBlocks64K)

/-- At a site the invariant holds of the request in progress. -/
theorem State.Inv.serving {s : State} (h : s.Inv) (hp : s.phase.accepts = false) : s.Serving :=
  ⟨h.lines, h.memory, h.awaits hp, h.write hp, h.erase hp, h.unit hp⟩

theorem siteExchange_of_accepts {s : State} (h : s.phase.accepts = true) : s.siteExchange = none := by
  unfold State.siteExchange
  split <;> simp_all [Phase.accepts]

/-- A block that accepts requests meets the invariant as soon as its outputs, bus port and memory do. -/
theorem inv_of_accepts {s : State} (hp : s.phase.accepts = true) (hl : s.LinesHigh) (hb : s.bus = none)
    (hm : Memory.wf s.chip.arr) : s.Inv where
  lines := hl
  bus := hb.trans (siteExchange_of_accepts hp).symm
  site := by simp [hp]
  write := by simp [hp]
  erase := by simp [hp]
  unit := by simp [hp]
  read := fun h => by simp [h, Phase.accepts] at hp
  verify := fun h => by simp [h, Phase.accepts] at hp
  memory := hm
  awaits := by simp [hp]

/-- A response leaves the invariant (R22). -/
theorem inv_deliver {s : State} (r : Response) (hl : s.LinesHigh) (hm : Memory.wf s.chip.arr) : (s.deliver r).Inv :=
  inv_of_accepts (Phase.afterResponse_accepts s.phase) hl rfl hm

theorem State.Serving.respond {s : State} (h : s.Serving) (v : Word) (d : List Byte) : (s.respond v d).Inv :=
  inv_deliver _ h.lines h.memory

theorem State.Serving.raise {s : State} (h : s.Serving) (e : ReqError) : (s.raise e).Inv :=
  inv_deliver _ h.lines h.memory

/-- Issuing the exchange of site L gives the invariant, where the request has that site; the two reads have their own
ranges to meet (R160, R146). -/
theorem State.Serving.issue {s : State} {L : Phase} {e : Exchange} (h : s.Serving) (hL : L.serves s.op = true)
    (he : (s.issue L e).siteExchange = some e) (hr : L = .sRd → s.a.toNat + s.b.toNat ≤ capacity)
    (hv : L = .sVfy → s.vpos.toNat < s.verifyLength) : (s.issue L e).Inv where
  lines := h.lines
  bus := he.symm
  site := fun _ => hL
  write := fun _ => h.write
  erase := fun _ => h.erase
  unit := fun _ => h.unit
  read := hr
  verify := hv
  memory := h.memory
  awaits := fun _ => h.awaits

/-! ## The continuations give the invariant -/

theorem State.Serving.enterGate {s : State} (h : s.Serving) (hm : s.op.mutates = true) : s.enterGate.Inv :=
  h.issue hm rfl nofun nofun

/-- The command of a request is the exchange of a site that serves it (R27, R162, R180). -/
theorem command_site {s : State} {L : Phase} {e : Exchange} (h : s.command = some (L, e)) :
    L.serves s.op = true ∧ L.isCommand = true ∧ (s.issue L e).siteExchange = some e := by
  unfold State.command at h
  split at h <;> simp only [Option.some.injEq, Prod.mk.injEq, reduceCtorEq] at h <;> obtain ⟨rfl, rfl⟩ := h <;>
    simp_all [Phase.serves, Phase.isCommand, State.siteExchange, State.chunkData, State.unitBase, State.unitIndex]

/-- A mutating request has a command (R14). -/
theorem exists_command {s : State} (h : s.op.mutates = true) : ∃ L e, s.command = some (L, e) := by
  unfold State.command
  cases ho : s.op <;> simp_all [HostOp.mutates]

theorem State.Serving.enterCommand {s : State} (h : s.Serving) (hm : s.op.mutates = true) : s.enterCommand.Inv := by
  obtain ⟨L, e, hc⟩ := exists_command hm
  obtain ⟨hL, hcmd, he⟩ := command_site hc
  simp only [State.enterCommand, hc]
  exact h.issue hL he (fun h => by simp [h, Phase.isCommand] at hcmd) (fun h => by simp [h, Phase.isCommand] at hcmd)

theorem State.Serving.afterWriteEnable {s : State} (h : s.Serving) (hm : s.op.mutates = true) :
    s.afterWriteEnable.Inv := by
  unfold State.afterWriteEnable
  split
  · exact h.issue hm rfl nofun nofun
  · exact h.enterCommand hm

theorem State.Serving.readStatus {s : State} (h : s.Serving) (rx : List Byte) : (s.readStatus rx).Serving := { h with }

theorem State.Serving.afterGateStatus {s : State} (h : s.Serving) (rx : List Byte) (hm : s.op.mutates = true) :
    (s.afterGateStatus rx).Inv := by
  unfold State.afterGateStatus
  dsimp only
  split
  · exact (h.readStatus rx).enterCommand hm
  · exact (h.readStatus rx).raise _

/-- A status read at S_POLL, by a request that polls (R144). -/
theorem State.Serving.issuePoll {s : State} (h : s.Serving) (hp : Phase.sPoll.serves s.op = true) :
    (s.issue .sPoll Exchange.readStatusRegister1).Inv :=
  h.issue hp rfl nofun nofun

theorem State.Serving.waitReady {s : State} (h : s.Serving) (hp : Phase.sPoll.serves s.op = true) : s.waitReady.Inv :=
  have h' : ({ s with pollcnt := 0 } : State).Serving := { h with }
  h'.issuePoll hp

theorem State.Serving.pageProgramStep {s : State} (h : s.Serving) (hm : s.op.mutates = true) :
    s.pageProgramStep.Inv := by
  unfold State.pageProgramStep
  split
  · exact h.raise _
  · exact h.enterGate hm

/-- The next chunk of a WRITE starts at a page's first byte, so it is at most a page and ends with the payload (R161
step 4). -/
theorem State.Serving.nextChunk {s : State} (h : s.Serving) (ho : s.op = .write) : s.nextChunk.Inv := by
  obtain ⟨hcur, hend, hpos, hchunk⟩ := h.write ho
  unfold State.nextChunk
  dsimp only
  split
  · exact inv_deliver _ h.lines h.memory
  next hlen =>
    refine State.Serving.pageProgramStep (s := { s with pos := _, cur := _, chunk := _ }) { h with write := fun _ => ?_ }
      (by simp [ho, HostOp.mutates])
    simp only [laterChunk, capacity, pageSize, BitVec.toNat_ofNat] at *
    omega

theorem State.Serving.afterUnit {s : State} (h : s.Serving) : s.afterUnit.Inv := by
  unfold State.afterUnit
  split
  next ho => exact h.nextChunk ho
  · split
    next ho =>
      obtain ⟨hunit, hlast⟩ := h.erase ho
      unfold State.eraseLoop
      split
      next hlt =>
        exact State.Serving.enterGate (s := { s with unit := _ }) { h with erase := fun _ => ⟨hlt, hlast⟩ }
          (by simp [ho, HostOp.mutates])
      · exact inv_deliver _ h.lines h.memory
    · exact h.respond _ _

theorem State.Serving.verifyLoop {s : State} (h : s.Serving) (hm : s.op.mutates = true) : s.verifyLoop.Inv := by
  unfold State.verifyLoop
  split
  next hlt => exact h.issue hm rfl nofun fun _ => hlt
  · exact h.afterUnit

theorem State.Serving.afterReadback {s : State} (h : s.Serving) (rx : List Byte) (hm : s.op.mutates = true) :
    (s.afterReadback rx).Inv := by
  unfold State.afterReadback
  split
  · exact State.Serving.verifyLoop (s := { s with vpos := _ }) { h with } hm
  · exact h.raise _

theorem State.Serving.afterReady {s : State} (h : s.Serving) : s.afterReady.Inv := by
  unfold State.afterReady
  split
  next hm =>
    split
    · exact State.Serving.verifyLoop (s := { s with vpos := 0 }) { h with } hm
    · exact h.afterUnit
  · exact h.respond _ _

theorem State.Serving.afterPoll {s : State} (h : s.Serving) (rx : List Byte) (hp : Phase.sPoll.serves s.op = true) :
    (s.afterPoll rx).Inv := by
  have h' : ({ s.readStatus rx with pollcnt := s.pollcnt + 1 } : State).Serving := { h with }
  unfold State.afterPoll
  dsimp only
  split
  · split
    · split
      · exact h'.raise _
      · exact h'.issuePoll hp
    · exact h'.issuePoll hp
  · exact h'.afterReady

/-- The sequencer resumes at a site into the invariant. -/
theorem State.Serving.resume {s : State} {L : Phase} (h : s.Serving) (rx : List Byte) (hL : L.serves s.op = true) :
    (L.resume rx s).Inv := by
  have poll : L.isCommand = true → Phase.sPoll.serves s.op = true := by
    intro hc
    cases L <;> simp only [Phase.isCommand, reduceCtorEq] at hc <;> cases ho : s.op <;>
      simp_all [Phase.serves, HostOp.mutates]
  cases L with
  | idle | ctlFault => simp [Phase.serves] at hL
  | sWe => exact h.afterWriteEnable hL
  | sWeRs => exact h.afterGateStatus rx hL
  | sPp | sSe | sBe32 | sBe64 | sCe => exact h.waitReady (poll rfl)
  | sPoll => exact h.afterPoll rx hL
  | sVfy => exact h.afterReadback rx hL
  | sRd | sId | sRst | sPd | sRpd => exact h.respond _ _
  | sRstEn => exact h.issue (L := .sRst) hL rfl nofun nofun

/-! ## Every step keeps the invariant -/

/-- The answer to the outstanding exchange keeps the invariant. -/
theorem inv_exec_wire {i : Instr} {s t : State} (hi : i.hostOp = none) (h : s.Inv) (ht : exec i s = .next t) : t.Inv := by
  obtain ⟨hserves, rfl⟩ := exec_wire hi ht
  have hs := h.serving (Phase.not_accepts_of_serves hserves)
  rcases exchange_cases (Chip.react i) s.phase.resume s with ⟨p, -, he⟩ | ⟨-, he⟩ <;> rw [he]
  · exact inv_deliver _ h.lines (Chip.scramble_wf _ _)
  · exact State.Serving.resume (s := { s.consume with chip := _ })
      { hs with memory := Chip.react_wf i _ (Chip.settle_wf _ h.memory) } _ hserves

/-- A request keeps the invariant if the way it starts does, once it is latched. -/
theorem inv_request {op : HostOp} {a b : Word} {body : State → State} {s t : State} (h : s.Inv)
    (ht : s.request op a b body = .next t) (hbody : (body (s.latch op a b)).Inv) : t.Inv := by
  rcases request_next.1 ht with ⟨-, rfl⟩ | ⟨-, rfl⟩ | ⟨-, rfl⟩
  · exact hbody
  · exact inv_deliver _ h.lines h.memory
  · exact h

/-- A request whose operands have no range is in progress as soon as it is latched (R26). -/
theorem State.Inv.latch {s : State} (h : s.Inv) {op : HostOp} (a b : Word)
    (hop : op ∉ [.write, .erase, .eraseSector, .eraseBlock32K, .eraseBlock64K]) : (s.latch op a b).Serving := by
  simp only [List.mem_cons, List.not_mem_nil, or_false, not_or] at hop
  obtain ⟨hw, he, hs, h32, h64⟩ := hop
  exact ⟨h.lines, h.memory, rfl, fun ho => absurd ho hw, fun ho => absurd ho he, fun ho => absurd ho hs,
    fun ho => absurd ho h32, fun ho => absurd ho h64⟩

/-- A per-unit erase checks its index before the gate (R181 to R183). -/
theorem State.Inv.eraseIndexed {s : State} (h : s.Inv) {op : HostOp} {a b : Word} {count : Nat} (hm : op.mutates = true)
    (hs : a.toNat < count → (s.latch op a b).Serving) : (State.eraseIndexed a count (s.latch op a b)).Inv := by
  unfold State.eraseIndexed
  split
  · exact inv_deliver _ h.lines h.memory
  next hlt => exact (hs (Nat.lt_of_not_le hlt)).enterGate hm

/-- READ checks its range before its exchange (R160). -/
theorem inv_execHostRead {a n : Word} {s t : State} (h : s.Inv) (ht : execHostRead a n s = .next t) : t.Inv := by
  refine inv_request h ht ?_
  split
  · exact inv_deliver _ h.lines h.memory
  next hle =>
    exact (h.latch a n (by decide)).issue rfl rfl (fun _ => Nat.le_of_not_lt hle) nofun

/-- WRITE checks its range, and its first chunk ends with its page or with the payload (R161 steps 1 to 3). -/
theorem inv_execHostWrite {a : Word} {data : List Byte} {s t : State} (h : s.Inv)
    (ht : execHostWrite a data s = .next t) : t.Inv := by
  unfold execHostWrite at ht
  split at ht
  · simp at ht
  · refine inv_request h ht ?_
    split
    · exact inv_deliver _ h.lines h.memory
    next hle =>
      refine State.Serving.pageProgramStep ⟨h.lines, h.memory, rfl, fun _ => ?_, nofun, nofun, nofun, nofun⟩ rfl
      simp only [State.latch_a, firstChunk, capacity, pageSize, BitVec.toNat_ofNat, BitVec.ofNat_eq_ofNat] at *
      omega

/-- ERASE's checks leave a range of sectors inside the array (R185). -/
theorem inv_execHostErase {first last : Word} {s t : State} (h : s.Inv)
    (ht : execHostErase first last s = .next t) : t.Inv := by
  refine inv_request h ht ?_
  split
  · exact inv_deliver _ h.lines h.memory
  · split
    · exact inv_deliver _ h.lines h.memory
    · split
      · exact inv_deliver _ h.lines h.memory
      next hle =>
        unfold State.eraseLoop
        split
        next hlt =>
          refine State.Serving.enterGate ⟨h.lines, h.memory, rfl, nofun, fun _ => ⟨hlt, ?_⟩, nofun, nofun, nofun⟩ rfl
          simp only [capacity, sectorSize, nSectors, BitVec.toNat_ofNat] at *
          omega
        · exact inv_deliver _ h.lines h.memory

/-- A host request keeps the invariant. -/
theorem inv_exec_host {i : Instr} {s t : State} (hi : i.hostOp ≠ none) (h : s.Inv) (ht : exec i s = .next t) : t.Inv := by
  cases i with
  | hostRead a n => exact inv_execHostRead h ht
  | hostWrite a data => exact inv_execHostWrite h ht
  | hostErase first last => exact inv_execHostErase h ht
  | hostEraseSector a b =>
    exact inv_request h ht (h.eraseIndexed rfl fun hlt =>
      ⟨h.lines, h.memory, rfl, nofun, nofun, fun _ => hlt, nofun, nofun⟩)
  | hostEraseBlock32K a b =>
    exact inv_request h ht (h.eraseIndexed rfl fun hlt =>
      ⟨h.lines, h.memory, rfl, nofun, nofun, nofun, fun _ => hlt, nofun⟩)
  | hostEraseBlock64K a b =>
    exact inv_request h ht (h.eraseIndexed rfl fun hlt =>
      ⟨h.lines, h.memory, rfl, nofun, nofun, nofun, nofun, fun _ => hlt⟩)
  | hostEraseChip a b => exact inv_request h ht ((h.latch a b (by decide)).enterGate rfl)
  | hostWaitIdle a b => exact inv_request h ht ((h.latch a b (by decide)).waitReady rfl)
  | hostDeviceId a b | hostReset a b | hostPowerDown a b | hostReleasePowerDown a b =>
    exact inv_request h ht ((h.latch a b (by decide)).issue rfl rfl nofun nofun)
  | hostCapacity a b | hostUnassigned0 a b | hostUnassignedE a b | hostUnassignedF a b =>
    exact inv_request h ht (inv_deliver _ h.lines h.memory)
  | _ => exact absurd rfl hi

/-- Every instruction keeps the invariant. -/
theorem inv_exec {i : Instr} {s t : State} (h : s.Inv) (ht : exec i s = .next t) : t.Inv :=
  if hi : i.hostOp = none then inv_exec_wire hi h ht else inv_exec_host hi h ht

/-- A block reset gives the invariant, the memory's form being kept (R33). -/
theorem inv_blockReset {s : State} (ok : Bool) (h : Memory.wf s.chip.arr) : (s.blockReset ok).Inv :=
  inv_of_accepts (by cases ok <;> rfl) ⟨rfl, rfl⟩ rfl (abandonExchange_wf h)

/-- Settles O57: a block reset, a held or accepted request and the answer to an exchange each keep the invariant. -/
theorem everyStepKeepsTheInvariant : Obligations.EveryStepKeepsTheInvariant := by
  intro s t h ht
  have hdrop : s.dropResetInput.Inv := { h with }
  rcases step_cases ht with ⟨ok, -, rfl⟩ | ⟨-, ⟨-, -, rfl⟩ | ⟨r, rest, i, -, -, -, he⟩ | ⟨e, i, -, -, -, he⟩⟩
  · exact inv_blockReset ok h.memory
  · exact hdrop
  · exact inv_exec (s := { s.dropResetInput with offers := rest }) { hdrop with } he
  · exact inv_exec hdrop he

/-- Settles O56: after reset the block accepts requests, its outputs are high and the listed memory is empty. -/
theorem resetMeetsTheInvariant : Obligations.ResetMeetsTheInvariant :=
  inv_of_accepts rfl ⟨rfl, rfl⟩ rfl Memory.wf_nil

end Sys2Proof.Machine

namespace Sys2Proof.Machine

open Config

/-! ## The step as a function of what is fetched -/

/-- What a step does with what the fetch found. -/
def Fetched.outcome (s : State) : Fetched → Host.Outcome State Fault Refusal
  | .wait => .next s
  | .run i u => exec i u
  | .stop r => .refused r
  | .stuck f => .fault f

/-- With no block reset the step runs what it fetches (R20). -/
theorem step_of_noReset {s : State} (h : s.noReset) : step s = s.dropResetInput.fetch.outcome s.dropResetInput := by
  have take : s.takeResetInput = (none, s.dropResetInput) := by
    obtain ⟨resetIn, hs⟩ : ∃ l, s.resetIn = l := ⟨_, rfl⟩
    match resetIn with
    | [] =>
      have tail : s.resetIn.tail = s.resetIn := by simp [hs]
      have drop : s.dropResetInput = s := by simp only [State.dropResetInput, tail]
      simp [State.takeResetInput, hs, drop]
    | .run :: rest => simp [State.takeResetInput, State.dropResetInput, hs]
    | .reset ok :: rest => exact absurd (by simp [hs]) (h ok)
  unfold step
  rw [take]
  dsimp only
  cases s.dropResetInput.fetch <;> rfl

/-- A block reset comes before anything fetched (R250). -/
theorem step_of_reset {s : State} {ok : Bool} (h : s.resetIn.head? = some (.reset ok)) :
    step s = .next (s.dropResetInput.blockReset ok) := by
  obtain ⟨rest, hr⟩ := List.head?_eq_some_iff.1 h
  simp [step, State.takeResetInput, State.dropResetInput, hr]

theorem fetch_no_offer {s : State} (ha : s.phase.accepts = true) (ho : s.offers = []) : s.fetch = .wait := by
  simp [State.fetch, State.fetchRequest, ha, ho]

theorem fetch_offer {s : State} {r : HostRequest} {rest : List HostRequest} {i : Instr} (ha : s.phase.accepts = true)
    (ho : s.offers = r :: rest) (hd : decodeRequest r = .ok i) : s.fetch = .run i { s with offers := rest } := by
  simp [State.fetch, State.fetchRequest, ha, ho, hd]

theorem fetch_no_request {s : State} {r : HostRequest} {rest : List HostRequest} {e : DecodeError}
    (ha : s.phase.accepts = true) (ho : s.offers = r :: rest) (hd : decodeRequest r = .error e) :
    s.fetch = .stop (.notARequest e) := by
  simp [State.fetch, State.fetchRequest, ha, ho, hd]

theorem fetch_outstanding {s : State} {e : Exchange} {i : Instr} (ha : s.phase.accepts = false) (hb : s.bus = some e)
    (hd : decodeExchange e = .ok i) : s.fetch = .run i s := by
  simp [State.fetch, State.fetchExchange, ha, hb, hd]

/-- Settles O6, by what the fetch finds. -/
theorem stepRunsTheDecodedInstruction : Obligations.StepRunsTheDecodedInstruction := by
  refine ⟨fun s r rest i hn ha ho hd => ?_, fun s e i hn ha hb hd => ?_⟩ <;> rw [step_of_noReset hn]
  · rw [fetch_offer (s := s.dropResetInput) ha ho hd]; rfl
  · rw [fetch_outstanding (s := s.dropResetInput) ha hb hd]; rfl

/-! ## What the decoders accept -/

@[simp] theorem instr_hostOp (op : HostOp) (a b : Word) (data : List Byte) : (op.instr a b data).hostOp = some op := by
  cases op <;> rfl

/-- An accepted offer has W0's bits 31..4 zero and the number of data bytes of its op, and is the instruction of that op
(R21, R102). -/
theorem decodeRequest_ok {r : HostRequest} {i : Instr} (h : decodeRequest r = .ok i) :
    r.w0.extractLsb' 4 28 = 0#28 ∧
      ∃ op, op = HostOp.ofCode (r.w0.extractLsb' 0 4) ∧ r.data.length = op.dataLength r.w2 ∧
        i = op.instr r.w1 r.w2 r.data := by
  unfold decodeRequest at h
  split at h
  next hr =>
    dsimp only at h
    split at h
    next hl => exact ⟨hr, _, rfl, hl, (Except.ok.inj h).symm⟩
    · simp at h
  · simp at h

/-- The instruction of an accepted offer is a well-formed host request (R21). -/
theorem decodeRequest_wellFormed {r : HostRequest} {i : Instr} (h : decodeRequest r = .ok i) :
    i.WellFormed ∧ ∃ op, i.hostOp = some op := by
  obtain ⟨-, op, -, hl, rfl⟩ := decodeRequest_ok h
  refine ⟨?_, op, instr_hostOp ..⟩
  cases op with
  | write =>
    have := r.w2.isLt
    simp only [HostOp.dataLength] at hl
    simp only [HostOp.instr, Instr.WellFormed, Instr.wf, decide_eq_true_eq]
    omega
  | _ => rfl

/-- An exchange that encodes a wire command decodes to it (R91, R92). -/
theorem decodeExchange_of_encode {i : Instr} {e : Exchange} (h : encode i = .exchange e) : decodeExchange e = .ok i := by
  cases i <;> simp only [encode, Encoded.exchange.injEq, reduceCtorEq] at h <;> subst h
  case pageProgram x d =>
    simp [decodeExchange, Exchange.pageProgram, frameAddr, addrBytes, Opcode.shape, Exchange.countOk, decodeBody]
  case readData | sectorErase | blockErase32K | blockErase64K =>
    simp [decodeExchange, Exchange.readData, Exchange.sectorErase, Exchange.blockErase32K, Exchange.blockErase64K,
      frameAddr, addrBytes, Opcode.shape, Exchange.countOk, decodeBody, decodeAddressed]
  all_goals rfl

/-- Only a wire command is encoded as an exchange (R3). -/
theorem hostOp_of_encode {i : Instr} {e : Exchange} (h : encode i = .exchange e) : i.hostOp = none := by
  cases i <;> simp_all [encode, Instr.hostOp]

/-- A well-formed host request always answers: accepted, or held (R21). -/
theorem exec_host_answers {i : Instr} {op : HostOp} (hi : i.hostOp = some op) (hw : i.WellFormed) (s : State) :
    ∃ t, exec i s = .next t := by
  obtain ⟨body, -, he⟩ := exec_host hi hw s
  rw [he, State.request]
  cases s.phase <;> exact ⟨_, rfl⟩

/-- WRITE has one W0 (R102). -/
theorem w0_of_write {w : Word} (hres : w.extractLsb' 4 28 = 0#28) (hop : HostOp.ofCode (w.extractLsb' 0 4) = .write) :
    w = 2 := by
  have hcode : w.extractLsb' 0 4 = 2#4 := by rw [← HostOp.code_ofCode (w.extractLsb' 0 4), hop]; rfl
  have hhi := congrArg BitVec.toNat hres
  have hlo := congrArg BitVec.toNat hcode
  simp only [BitVec.extractLsb'_toNat, Nat.shiftRight_eq_div_pow, BitVec.toNat_ofNat] at hhi hlo
  bv_omega

/-- Only WRITE carries data bytes (R21). -/
theorem dataLength_of_ne_write {op : HostOp} (b : Word) (h : op ≠ .write) : op.dataLength b = 0 := by
  cases op <;> simp_all [HostOp.dataLength]

/-- Settles O8: reserved bits and a wrong number of data bytes each keep the offer from decoding. -/
theorem stepRefusesWhatIsNoRequest : Obligations.StepRefusesWhatIsNoRequest := by
  intro s r rest hn ha ho
  have refuse : (∀ i, decodeRequest r ≠ .ok i) → ∃ e, step s = .refused (.notARequest e) := fun h => by
    rw [step_of_noReset hn]
    cases hd : decodeRequest r with
    | ok i => exact absurd hd (h i)
    | error e => exact ⟨e, by rw [fetch_no_request (s := s.dropResetInput) ha ho hd]; rfl⟩
  refine ⟨fun hres => refuse fun i hd => hres (decodeRequest_ok hd).1, fun hw hlen => refuse fun i hd => ?_,
    fun hw hdata => refuse fun i hd => ?_⟩
  · obtain ⟨-, op, hop, hl, -⟩ := decodeRequest_ok hd
    have : op = .write := by rw [hop, hw]; decide
    subst this
    exact hlen hl
  · obtain ⟨hres, op, hop, hl, -⟩ := decodeRequest_ok hd
    have hne : op ≠ .write := fun h => hw (w0_of_write hres (hop ▸ h))
    rw [dataLength_of_ne_write _ hne] at hl
    exact hdata (List.length_eq_zero_iff.1 hl)

/-! ## Where a wire command runs -/

/-- The sites at which the sequencer has a wire command outstanding (R27); none for a host request. -/
def Instr.sites : Instr → List Phase
  | .pageProgram _ _ => [.sPp]
  | .readData _ _ => [.sRd, .sVfy]
  | .readStatusRegister1 => [.sWeRs, .sPoll]
  | .writeEnable => [.sWe]
  | .sectorErase _ => [.sSe]
  | .blockErase32K _ => [.sBe32]
  | .uniqueId => [.sId]
  | .blockErase64K _ => [.sBe64]
  | .chipErase => [.sCe]
  | .enableReset => [.sRstEn]
  | .reset => [.sRst]
  | .powerDown => [.sPd]
  | .releasePowerDown => [.sRpd]
  | .hostRead _ _ | .hostWrite _ _ | .hostErase _ _ | .hostDeviceId _ _ | .hostReset _ _ | .hostCapacity _ _
  | .hostEraseSector _ _ | .hostEraseBlock32K _ _ | .hostEraseBlock64K _ _ | .hostEraseChip _ _ | .hostPowerDown _ _
  | .hostReleasePowerDown _ _ | .hostWaitIdle _ _ | .hostUnassigned0 _ _ | .hostUnassignedE _ _
  | .hostUnassignedF _ _ => []

/-- The sequencer is at a site of the wire command (R27). -/
def State.atSiteOf (s : State) (i : Instr) : Prop := ∃ L ∈ Instr.sites i, s.atSite L = true

theorem outstanding_iff {s : State} {i : Instr} : s.outstanding i = true ↔ i.WellFormed ∧ s.atSiteOf i := by
  cases i <;> simp [State.outstanding, State.atSiteOf, Instr.sites]

@[simp] theorem fault_guard_next {c : Prop} [Decidable c] {f : Fault} {o : Host.Outcome State Fault Refusal} {t : State} :
    (if c then .fault f else o) = Host.Outcome.next t ↔ ¬c ∧ o = .next t := by
  split <;> simp_all

@[simp] theorem refusal_guard_next {c : Prop} [Decidable c] {r : Refusal} {o : Host.Outcome State Fault Refusal}
    {t : State} : (if c then .refused r else o) = Host.Outcome.next t ↔ ¬c ∧ o = .next t := by
  split <;> simp_all

theorem runAt_answers {s : State} {L : Phase} {act : BusChoice → Chip → Chip × List Byte}
    {go : List Byte → State → State} : (∃ t, s.runAt L act go = .next t) ↔ s.atSite L = true := by
  simp [runAt_next]

/-- A command with two sites runs at the one the phase names. -/
theorem runAt_either_answers {s : State} {L M : Phase} {act : BusChoice → Chip → Chip × List Byte}
    {go go' : List Byte → State → State} :
    (∃ t, (if s.phase = L then s.runAt L act go else s.runAt M act go') = .next t) ↔
      s.atSite M = true ∨ s.atSite L = true := by
  have leave : s.phase ≠ L → s.atSite L ≠ true := fun hL h => hL (atSite_iff.1 h).1
  have stay : s.phase = L → s.atSite M = true → s.atSite L = true := fun hL h => by
    rwa [← hL, (atSite_iff.1 h).1]
  split
  next hL => rw [runAt_answers]; exact ⟨.inr, fun h => h.elim (stay hL) id⟩
  next hL => rw [runAt_answers]; exact ⟨.inl, fun h => h.resolve_right (leave hL)⟩

/-- What exec checks of the operands of a wire command before it runs (R64, R58); none of these for a host request. -/
def Instr.inArray : Instr → Prop
  | .pageProgram x d => x.toNat + d.length ≤ capacity ∧ x.toNat % pageSize + d.length ≤ pageSize
  | .readData x n => x.toNat + n ≤ capacity
  | .sectorErase x | .blockErase32K x | .blockErase64K x => x.toNat < capacity
  | .readStatusRegister1 | .writeEnable | .uniqueId | .chipErase | .enableReset | .reset | .powerDown | .releasePowerDown
  | .hostRead _ _ | .hostWrite _ _ | .hostErase _ _ | .hostDeviceId _ _ | .hostReset _ _ | .hostCapacity _ _
  | .hostEraseSector _ _ | .hostEraseBlock32K _ _ | .hostEraseBlock64K _ _ | .hostEraseChip _ _ | .hostPowerDown _ _
  | .hostReleasePowerDown _ _ | .hostWaitIdle _ _ | .hostUnassigned0 _ _ | .hostUnassignedE _ _
  | .hostUnassignedF _ _ => True

/-- Well-formed operands are in the array (R121, R122, R125, R126, R128). -/
theorem inArray_of_wellFormed {i : Instr} (h : i.WellFormed) : Instr.inArray i := by
  cases i <;> simp_all [Instr.WellFormed, Instr.wf, Instr.inArray]

/-- A wire command answers exactly at its sites, with operands in the array (R95). -/
theorem exec_wire_answers {i : Instr} {s : State} (hi : i.hostOp = none) :
    (∃ t, exec i s = .next t) ↔ Instr.inArray i ∧ s.atSiteOf i := by
  cases i <;> simp only [Instr.hostOp, reduceCtorEq] at hi
  case readData x n =>
    simp [exec, execReadData, runAt_either_answers, State.atSiteOf, Instr.sites, Instr.inArray]
  case readStatusRegister1 =>
    simp [exec, execReadStatusRegister1, runAt_either_answers, State.atSiteOf, Instr.sites, Instr.inArray, or_comm]
  case pageProgram x d =>
    simp [exec, execPageProgram, runAt_answers, State.atSiteOf, Instr.sites, Instr.inArray, and_assoc]
  case sectorErase | blockErase32K | blockErase64K =>
    simp [exec, execSectorErase, execBlockErase32K, execBlockErase64K, runAt_answers, State.atSiteOf, Instr.sites,
      Instr.inArray]
  all_goals
    simp [exec, execWriteEnable, execUniqueId, execChipErase, execEnableReset, execReset, execPowerDown,
      execReleasePowerDown, runAt_answers, State.atSiteOf, Instr.sites, Instr.inArray]

/-- Settles O47: a well-formed command is in the array, so only its site decides. -/
theorem commandsRunExactlyWhereOutstanding : Obligations.CommandsRunExactlyWhereOutstanding := by
  intro i s hi hw
  rw [exec_wire_answers hi, outstanding_iff]
  exact and_congr_left fun _ => iff_of_true (inArray_of_wellFormed hw) hw

/-! ## The outstanding exchange under the invariant -/

/-- The unit of an erase in progress ends inside the array (R180 to R185). -/
theorem State.Serving.unit_le_capacity {s : State} (h : s.Serving) (hw : s.op ≠ .write) :
    s.unitBase + s.op.unitSize ≤ capacity := by
  obtain ⟨h4, h32, h64⟩ := h.unit
  have herase := h.erase
  have hdef : s.unitBase = s.unitIndex * s.op.unitSize := rfl
  simp only [nSectors, nBlocks32K, nBlocks64K] at *
  cases ho : s.op <;> simp_all [State.unitIndex, HostOp.unitSize, sectorSize, block32KSize, block64KSize, capacity] <;>
    omega

/-- The span of a readback ends inside the array (R162, R180). -/
theorem State.Serving.verify_le_capacity {s : State} (h : s.Serving) : s.verifyBase + s.verifyLength ≤ capacity := by
  unfold State.verifyBase State.verifyLength
  split
  next ho =>
    obtain ⟨hcur, hend, hpos, hchunk⟩ := h.write ho
    omega
  next ho => exact h.unit_le_capacity ho

/-- An erase command's address is its unit's first byte, so it is aligned and inside the array (R93, R125 to R128). -/
theorem State.Serving.unit_address {s : State} (h : s.Serving) {size : Nat} (hs : s.op.unitSize = size) (hpos : 0 < size)
    (hw : s.op ≠ .write) : (wireAddr s.unitBase).toNat % size = 0 ∧ (wireAddr s.unitBase).toNat < capacity := by
  have hle := h.unit_le_capacity hw
  rw [wireAddr_toNat (by omega)]
  exact ⟨by simp [State.unitBase, hs], by omega⟩

/-- The wire command of the phase, from the registers: the one whose exchange is outstanding (R27). -/
def State.siteInstr (s : State) : Option Instr :=
  match s.phase with
  | .idle | .ctlFault => none
  | .sWe => some .writeEnable
  | .sWeRs | .sPoll => some .readStatusRegister1
  | .sPp => some (.pageProgram (wireAddr s.cur.toNat) s.chunkData)
  | .sSe => some (.sectorErase (wireAddr s.unitBase))
  | .sBe32 => some (.blockErase32K (wireAddr s.unitBase))
  | .sBe64 => some (.blockErase64K (wireAddr s.unitBase))
  | .sCe => some .chipErase
  | .sVfy => some (.readData (wireAddr (s.verifyBase + s.vpos.toNat)) s.readbackLength)
  | .sRd => some (.readData (wireAddr s.a.toNat) s.b.toNat)
  | .sId => some .uniqueId
  | .sRstEn => some .enableReset
  | .sRst => some .reset
  | .sPd => some .powerDown
  | .sRpd => some .releasePowerDown

/-- The exchange of a site is the encoding of the site's command (R91). -/
theorem siteInstr_exchange {s : State} (hp : s.phase.accepts = false) :
    ∃ i e, s.siteInstr = some i ∧ s.siteExchange = some e ∧ encode i = .exchange e ∧ s.phase ∈ Instr.sites i := by
  unfold State.siteInstr State.siteExchange
  cases hph : s.phase with
  | idle | ctlFault => simp [hph, Phase.accepts] at hp
  | _ => exact ⟨_, _, rfl, rfl, rfl, by simp [Instr.sites]⟩

/-- A page program sends a chunk that ends with its page and inside the array (R58, R161). -/
theorem State.Serving.pageProgram_wellFormed {s : State} (h : s.Serving) (ho : s.op = .write) :
    (Instr.pageProgram (wireAddr s.cur.toNat) s.chunkData).WellFormed := by
  obtain ⟨hcur, hend, hpos, hchunk⟩ := h.write ho
  simp only [Instr.WellFormed, Instr.wf, Bool.and_eq_true, decide_eq_true_eq, State.chunkData, List.length_take,
    List.length_drop]
  rw [wireAddr_toNat (by omega)]
  simp only [capacity, pageSize] at *
  omega

theorem readData_wellFormed {x n : Nat} (h : x + n ≤ capacity) : (Instr.readData (wireAddr x) n).WellFormed := by
  simpa [Instr.WellFormed, Instr.wf, wireAddr_toNat (Nat.le_of_add_right_le h)] using h

/-- Under the invariant the site's command has its operands in range (R58, R61, R160, R181 to R185). -/
theorem State.Inv.siteInstr_wellFormed {s : State} {i : Instr} (h : s.Inv) (hi : s.siteInstr = some i) : i.WellFormed := by
  have serving {L : Phase} (hp : s.phase = L) (hL : L.accepts = false) : s.Serving ∧ L.serves s.op = true := by
    subst hp
    exact ⟨h.serving hL, h.site hL⟩
  have erase {L : Phase} {size : Nat} (hp : s.phase = L) (hL : L.accepts = false)
      (hop : L.serves s.op = true → s.op.unitSize = size ∧ s.op ≠ .write) (hpos : 0 < size) :
      (decide ((wireAddr s.unitBase).toNat % size = 0) && decide ((wireAddr s.unitBase).toNat < capacity)) = true := by
    obtain ⟨hs, hserves⟩ := serving hp hL
    obtain ⟨hsize, hw⟩ := hop hserves
    simpa using hs.unit_address hsize hpos hw
  unfold State.siteInstr at hi
  cases hp : s.phase <;> simp only [hp, Option.some.injEq, reduceCtorEq] at hi <;> subst hi
  case sPp =>
    obtain ⟨hs, hserves⟩ := serving hp rfl
    exact hs.pageProgram_wellFormed (of_decide_eq_true hserves)
  case sSe | sBe32 | sBe64 =>
    exact erase hp rfl (by cases s.op <;> simp [Phase.serves, HostOp.unitSize]) (by decide)
  case sVfy =>
    have hspan := (serving hp rfl).1.verify_le_capacity
    have hleft := h.verify hp
    exact readData_wellFormed (by unfold State.readbackLength; omega)
  case sRd => exact readData_wellFormed (h.read hp)
  all_goals rfl

/-- The exchange outstanding at a site is a well-formed command of that site (R58, R61, R95). -/
theorem State.Inv.outstanding_exchange {s : State} (h : s.Inv) (hp : s.phase.accepts = false) :
    ∃ e i, s.bus = some e ∧ encode i = .exchange e ∧ s.outstanding i = true := by
  obtain ⟨i, e, hi, he, henc, hL⟩ := siteInstr_exchange hp
  exact ⟨e, i, h.bus.trans he, henc,
    outstanding_iff.2 ⟨h.siteInstr_wellFormed hi, s.phase, hL, atSite_iff.2 ⟨rfl, h.site hp⟩⟩⟩

/-- Settles O58: what is outstanding runs, and a request that is one is held or accepted. -/
theorem invariantStepAnswers : Obligations.InvariantStepAnswers := by
  intro s h hoffer
  by_cases hn : s.noReset
  · rw [step_of_noReset hn]
    cases ha : s.phase.accepts with
    | true =>
      cases ho : s.offers with
      | nil => exact ⟨_, by rw [fetch_no_offer (s := s.dropResetInput) ha ho]; rfl⟩
      | cons r rest =>
        obtain ⟨i, hd⟩ := hoffer r rest ha ho
        obtain ⟨hw, op, hi⟩ := decodeRequest_wellFormed hd
        rw [fetch_offer (s := s.dropResetInput) ha ho hd]
        exact exec_host_answers hi hw _
    | false =>
      have hdrop : s.dropResetInput.Inv := { h with }
      obtain ⟨e, i, hb, he, hout⟩ := hdrop.outstanding_exchange ha
      obtain ⟨hw, hsite⟩ := outstanding_iff.1 hout
      rw [fetch_outstanding (s := s.dropResetInput) ha hb (decodeExchange_of_encode he)]
      exact (exec_wire_answers (hostOp_of_encode he)).2 ⟨inArray_of_wellFormed hw, hsite⟩
  · simp only [State.noReset, not_forall, not_not] at hn
    obtain ⟨ok, hr⟩ := hn
    exact ⟨_, step_of_reset hr⟩

/-! ## Block reset -/

/-- A block reset leaves the parameters, the responses and the trace as they are (R250). -/
theorem blockReset_ports (s : State) (ok : Bool) :
    (s.blockReset ok).params = s.params ∧ (s.blockReset ok).responses = s.responses ∧ (s.blockReset ok).trace = s.trace := by
  have h : s.abandonExchange.params = s.params ∧ s.abandonExchange.responses = s.responses ∧
      s.abandonExchange.trace = s.trace := by
    rcases abandonExchange_cases s with ⟨-, ha⟩ | ⟨ch, ha, -⟩ <;> rw [ha] <;> exact ⟨rfl, rfl, rfl⟩
  exact h

/-- With no exchange outstanding a block reset does not touch the chip (R250). -/
theorem blockReset_chip {s : State} (ok : Bool) (h : s.bus = none) : (s.blockReset ok).chip = s.chip := by
  show s.abandonExchange.chip = s.chip
  simp [State.abandonExchange, h]

theorem blockReset_resetValues (s : State) (ok : Bool) : (s.blockReset ok).ResetValues ok :=
  ⟨rfl, rfl, rfl, rfl, rfl, rfl, rfl, rfl, rfl, rfl, rfl, rfl, rfl, rfl, rfl, rfl, rfl, rfl, rfl, rfl⟩

/-- Settles O9: a block reset input is taken before anything else, and its values are those of R33. -/
theorem blockResetLeavesTheStatedValues : Obligations.BlockResetLeavesTheStatedValues := fun _ ok =>
  ⟨_, step_of_reset rfl, blockReset_resetValues _ ok, (blockReset_ports _ ok).2.2, blockReset_chip ok⟩

/-- Settles O10: each register of the reset state is listed with its value of R33. -/
theorem resetStateHasTheResetValues : Obligations.ResetStateHasTheResetValues :=
  ⟨rfl, rfl, rfl, rfl, rfl, rfl, rfl, rfl, rfl, rfl, rfl, rfl, rfl, rfl, rfl, rfl, rfl, rfl, rfl, rfl⟩

end Sys2Proof.Machine

namespace Sys2Proof.Machine

/-! ## What an instruction can do -/

/-- A WRITE with more data than R21 admits is refused, so a host request that answers is well-formed. -/
theorem wellFormed_of_exec_host {i : Instr} {s t : State} (hi : i.hostOp ≠ none) (h : exec i s = .next t) :
    i.WellFormed := by
  cases i with
  | hostWrite a data =>
    simp only [exec, execHostWrite, refusal_guard_next] at h
    simpa [Instr.WellFormed, Instr.wf] using h.1
  | pageProgram | readData | sectorErase | blockErase32K | blockErase64K => exact absurd rfl hi
  | _ => rfl

/-- A host request that answers was held, or was latched and goes on from there to its first exchange or its response. -/
theorem exec_host_cases {i : Instr} {s t : State} (hi : i.hostOp ≠ none) (h : exec i s = .next t) :
    (s.phase.accepts = false ∧ t = s) ∨
      ∃ op a b, s.phase.accepts = true ∧ i.hostOp = some op ∧ Continues (s.latch op a b) t := by
  obtain ⟨op, hop⟩ := Option.ne_none_iff_exists'.1 hi
  obtain ⟨body, hbody, he⟩ := exec_host hop (wellFormed_of_exec_host hi h) s
  rcases request_next.1 (he ▸ h) with ⟨hp, rfl⟩ | ⟨hp, rfl⟩ | ⟨hp, rfl⟩
  · exact .inr ⟨op, _, _, by rw [hp]; rfl, hop, hbody _⟩
  · exact .inr ⟨op, _, _, by rw [hp]; rfl, hop, continues_raise _ _⟩
  · exact .inl ⟨hp, rfl⟩

/-- A wire command that answers goes on from the state in which the environment's choices are used up and the chip has
reacted, its identifier unchanged. -/
theorem exec_wire_cases {i : Instr} {s t : State} (hi : i.hostOp = none) (h : exec i s = .next t) :
    s.phase.serves s.op = true ∧ ∃ ch, ch.uid = s.chip.uid ∧ Continues { s.consume with chip := ch } t := by
  obtain ⟨hserves, rfl⟩ := exec_wire hi h
  refine ⟨hserves, ?_⟩
  rcases exchange_cases (Chip.react i) s.phase.resume s with ⟨p, -, he⟩ | ⟨-, he⟩ <;> rw [he]
  · exact ⟨_, Chip.scramble_uid _ _, continues_raise _ _⟩
  · exact ⟨_, by rw [Chip.react_uid, State.chipNow, Chip.settle_uid], continues_resume _ hserves⟩

/-- One exchange is issued or one response is delivered. -/
theorem Continues.trace {s t : State} (h : Continues s t) : t.trace = s.trace ∨ ∃ e, t.trace = s.trace ++ [e] := by
  rcases h.ports with ⟨e, -, -, ht, -⟩ | ⟨r, -, -, ht, -⟩
  · exact .inr ⟨e, ht⟩
  · exact .inl ht

theorem Continues.responses {s t : State} (h : Continues s t) :
    t.responses = s.responses ∨ ∃ r, t.responses = s.responses ++ [r] := by
  rcases h.ports with ⟨e, -, -, -, hr, -⟩ | ⟨r, -, -, -, hr, -⟩
  · exact .inl hr
  · exact .inr ⟨r, hr⟩

/-- Settles O44: a request held changes nothing; else the latch, or the exchange, and one continuation. -/
theorem frameOfEveryInstruction : Obligations.FrameOfEveryInstruction := by
  intro i s t h
  by_cases hi : i.hostOp = none
  · obtain ⟨-, ch, huid, hc⟩ := exec_wire_cases hi h
    exact ⟨hc.params, hc.holdN, hc.wpN, hc.resetIn, hc.offers, by rw [hc.chip, ← huid], fun _ => ⟨hc.op, hc.a, hc.b⟩,
      fun hn => absurd hi hn, hc.trace, hc.responses⟩
  · rcases exec_host_cases hi h with ⟨-, rfl⟩ | ⟨op, a, b, -, -, hc⟩
    · exact ⟨rfl, rfl, rfl, rfl, rfl, rfl, fun hn => absurd hn hi, fun _ => ⟨rfl, rfl, rfl, fun _ => rfl⟩, .inl rfl, .inl rfl⟩
    · exact ⟨hc.params, hc.holdN, hc.wpN, hc.resetIn, hc.offers, by rw [hc.chip]; rfl, fun hn => absurd hn hi,
        fun _ => ⟨hc.chip, hc.script, hc.draws, fun a => by rw [hc.chip]; rfl⟩, hc.trace, hc.responses⟩

/-- Settles O15: outside IDLE and CTLFAULT a request's meaning is to hold it, and the step runs the exchange instead. -/
theorem portHoldsARequestWhileBusy : Obligations.PortHoldsARequestWhileBusy := by
  refine ⟨fun i op s hi hw ha => ?_, fun s t hn ha h => ?_⟩
  · obtain ⟨body, -, he⟩ := exec_host hi hw s
    rw [he]
    exact request_next.2 (.inr (.inr ⟨ha, rfl⟩))
  · rcases step_cases h with ⟨ok, hr, -⟩ | ⟨-, ⟨hacc, -⟩ | ⟨r, rest, i, hacc, -⟩ | ⟨e, i, -, -, -, he⟩⟩
    · exact absurd hr (hn ok)
    · simp [ha] at hacc
    · simp [ha] at hacc
    · obtain ⟨-, -, -, -, hoffers, -⟩ := frameOfEveryInstruction i _ t he
      exact hoffers

/-! ## What a step can do at the ports -/

/-- The parameters, the control outputs, the responses and the trace of two states agree. -/
structure State.SamePorts (s u : State) : Prop where
  params    : u.params = s.params
  holdN     : u.holdN = s.holdN
  wpN       : u.wpN = s.wpN
  responses : u.responses = s.responses
  trace     : u.trace = s.trace

/-- A step is a block reset; or, from a state with the same ports, nothing or one continuation. -/
theorem step_ports {s t : State} (h : step s = .next t) :
    (∃ ok, s.resetIn.head? = some (.reset ok) ∧ t = s.dropResetInput.blockReset ok) ∨
      s.noReset ∧ ∃ u, s.SamePorts u ∧ (t = u ∨ Continues u t) := by
  have run : ∀ {i : Instr} {v : State}, s.SamePorts v → exec i v = .next t →
      ∃ u, s.SamePorts u ∧ (t = u ∨ Continues u t) := fun {i v} hv he => by
    by_cases hi : i.hostOp = none
    · obtain ⟨-, ch, -, hc⟩ := exec_wire_cases hi he
      exact ⟨{ v.consume with chip := ch }, { hv with }, .inr hc⟩
    · rcases exec_host_cases hi he with ⟨-, rfl⟩ | ⟨op, a, b, -, -, hc⟩
      · exact ⟨_, hv, .inl rfl⟩
      · exact ⟨v.latch op a b, { hv with }, .inr hc⟩
  have same : s.SamePorts s.dropResetInput := ⟨rfl, rfl, rfl, rfl, rfl⟩
  rcases step_cases h with hr | ⟨hn, ⟨-, -, rfl⟩ | ⟨r, rest, i, -, -, -, he⟩ | ⟨e, i, -, -, -, he⟩⟩
  · exact .inl hr
  · exact .inr ⟨hn, _, same, .inl rfl⟩
  · exact .inr ⟨hn, run (v := { s.dropResetInput with offers := rest }) { same with } he⟩
  · exact .inr ⟨hn, run same he⟩

/-- Settles O49: neither a block reset nor a continuation writes them. -/
theorem parametersNeverChange : Obligations.ParametersNeverChange := by
  intro s t h
  rcases step_ports h with ⟨ok, -, rfl⟩ | ⟨-, u, hu, rfl | hc⟩
  · exact (blockReset_ports s.dropResetInput ok).1
  · exact hu.params
  · exact hc.params.trans hu.params

/-- Out of a block reset no step changes the control outputs (R24). -/
theorem step_lines {s t : State} (h : step s = .next t) (hn : s.noReset) : t.holdN = s.holdN ∧ t.wpN = s.wpN := by
  rcases step_ports h with ⟨ok, hr, -⟩ | ⟨-, u, hu, rfl | hc⟩
  · exact absurd hr (hn ok)
  · exact ⟨hu.holdN, hu.wpN⟩
  · exact ⟨hc.holdN.trans hu.holdN, hc.wpN.trans hu.wpN⟩

/-- Settles O48: a block reset drives the outputs high, and no other step changes them. -/
theorem controlLinesStayHigh : Obligations.ControlLinesStayHigh := by
  refine ⟨fun s ok => ⟨rfl, rfl⟩, fun s t h hh hw => ?_, fun s t => step_lines⟩
  by_cases hn : s.noReset
  · rw [(step_lines h hn).1, (step_lines h hn).2]
    exact ⟨hh, hw⟩
  · rcases step_ports h with ⟨ok, -, rfl⟩ | ⟨hn', -⟩
    · exact ⟨rfl, rfl⟩
    · exact absurd hn' hn

/-- Settles O50: only a continuation that ends with a response delivers one. -/
theorem stepDeliversAtMostOneResponse : Obligations.StepDeliversAtMostOneResponse := by
  intro s t h
  rcases step_ports h with ⟨ok, -, rfl⟩ | ⟨-, u, hu, rfl | hc⟩
  · exact .inl (blockReset_ports s.dropResetInput ok).2.1
  · exact .inl hu.responses
  · rcases hc.ports with ⟨e, -, -, -, hr, -⟩ | ⟨r, hp, hb, ht, hr, ⟨hpay, herr⟩, -, haw⟩
    · exact .inl (hr.trans hu.responses)
    · have ha : t.phase.accepts = true := by rw [hp]; exact Phase.afterResponse_accepts _
      exact .inr ⟨r, by rw [hr, hu.responses], ha, hb, ht.trans hu.trace, haw, by simp [State.runEnded, ha, haw], hpay, herr⟩

/-- Settles O51: only a continuation that ends with an exchange issues one. -/
theorem stepIssuesAtMostOneExchange : Obligations.StepIssuesAtMostOneExchange := by
  intro s t h
  rcases step_ports h with ⟨ok, -, rfl⟩ | ⟨-, u, hu, rfl | hc⟩
  · exact .inl (blockReset_ports s.dropResetInput ok).2.2
  · exact .inl hu.trace
  · rcases hc.ports with ⟨e, ha, hb, ht, hr, -⟩ | ⟨r, -, -, ht, -⟩
    · exact .inr ⟨e, by rw [ht, hu.trace], hb, ha, hr.trans hu.responses, by simp [State.runEnded, ha]⟩
    · exact .inl (ht.trans hu.trace)

/-! ## The registers a continuation leaves alone -/

/-- The registers of the poll, and the end of an erase range (R26, R141, R144, R185). -/
def State.pollRegs (s : State) : Byte × Nat × BitVec 11 := (s.sr, s.pollcnt, s.unitEnd)

/-- The registers of the step in progress (R26, R161, R185, R146). -/
def State.stepRegs (s : State) : Word × Word × BitVec 9 × BitVec 11 × BitVec 23 := (s.cur, s.pos, s.chunk, s.unit, s.vpos)

theorem enterCommand_pollRegs (s : State) : s.enterCommand.pollRegs = s.pollRegs := by
  unfold State.enterCommand
  split <;> rfl

theorem enterCommand_stepRegs (s : State) : s.enterCommand.stepRegs = s.stepRegs := by
  unfold State.enterCommand
  split <;> rfl

theorem afterWriteEnable_pollRegs (s : State) : s.afterWriteEnable.pollRegs = s.pollRegs := by
  unfold State.afterWriteEnable
  split
  · rfl
  · exact enterCommand_pollRegs s

theorem afterWriteEnable_stepRegs (s : State) : s.afterWriteEnable.stepRegs = s.stepRegs := by
  unfold State.afterWriteEnable
  split
  · rfl
  · exact enterCommand_stepRegs s

theorem afterGateStatus_stepRegs (s : State) (rx : List Byte) : (s.afterGateStatus rx).stepRegs = s.stepRegs := by
  unfold State.afterGateStatus
  dsimp only
  split
  · exact enterCommand_stepRegs _
  · rfl

theorem pageProgramStep_pollRegs (s : State) : s.pageProgramStep.pollRegs = s.pollRegs := by
  unfold State.pageProgramStep
  split <;> rfl

theorem nextChunk_pollRegs (s : State) : s.nextChunk.pollRegs = s.pollRegs := by
  unfold State.nextChunk
  dsimp only
  split
  · rfl
  · exact pageProgramStep_pollRegs _

theorem eraseLoop_pollRegs (s : State) : s.eraseLoop.pollRegs = s.pollRegs := by
  unfold State.eraseLoop
  split <;> rfl

theorem afterUnit_pollRegs (s : State) : s.afterUnit.pollRegs = s.pollRegs := by
  unfold State.afterUnit
  split
  · exact nextChunk_pollRegs s
  · split
    · exact eraseLoop_pollRegs _
    · rfl

theorem verifyLoop_pollRegs (s : State) : s.verifyLoop.pollRegs = s.pollRegs := by
  unfold State.verifyLoop
  split
  · rfl
  · exact afterUnit_pollRegs s

theorem afterReadback_pollRegs (s : State) (rx : List Byte) : (s.afterReadback rx).pollRegs = s.pollRegs := by
  unfold State.afterReadback
  split
  · exact verifyLoop_pollRegs _
  · rfl

theorem afterReady_pollRegs (s : State) : s.afterReady.pollRegs = s.pollRegs := by
  unfold State.afterReady
  split
  · split
    · exact verifyLoop_pollRegs _
    · exact afterUnit_pollRegs s
  · rfl

/-- After a poll's status byte the registers of the poll hold it and the count (R144). -/
theorem afterPoll_pollRegs (s : State) (rx : List Byte) :
    (s.afterPoll rx).pollRegs = (rx.getD 1 0, s.pollcnt + 1, s.unitEnd) := by
  unfold State.afterPoll
  dsimp only
  split
  · split
    · split <;> rfl
    · rfl
  · exact afterReady_pollRegs _

/-- The gate's status byte is the only register of the poll that the gate writes (R143). -/
theorem afterGateStatus_pollRegs (s : State) (rx : List Byte) :
    (s.afterGateStatus rx).pollRegs = (rx.getD 1 0, s.pollcnt, s.unitEnd) := by
  unfold State.afterGateStatus
  dsimp only
  split
  · exact enterCommand_pollRegs _
  · rfl

/-- What resuming at a site writes of the poll's registers: the status byte where one was read, the count where the poll
starts or goes on (R143, R144). -/
theorem resume_pollRegs (L : Phase) (rx : List Byte) (s : State) :
    (L.resume rx s).pollRegs =
      (if L = .sWeRs ∨ L = .sPoll then rx.getD 1 0 else s.sr,
        if L.isCommand then 0 else if L = .sPoll then s.pollcnt + 1 else s.pollcnt, s.unitEnd) := by
  cases L with
  | sWe => exact afterWriteEnable_pollRegs s
  | sWeRs => exact afterGateStatus_pollRegs s rx
  | sPoll => exact afterPoll_pollRegs s rx
  | sVfy => exact afterReadback_pollRegs s rx
  | _ => rfl

/-- Only the poll and the readback write the registers of the step (R146, R161, R185). -/
theorem resume_stepRegs {L : Phase} (rx : List Byte) (s : State) (hp : L ≠ .sPoll) (hv : L ≠ .sVfy) :
    (L.resume rx s).stepRegs = s.stepRegs := by
  cases L with
  | sWe => exact afterWriteEnable_stepRegs s
  | sWeRs => exact afterGateStatus_stepRegs s rx
  | sPoll => exact absurd rfl hp
  | sVfy => exact absurd rfl hv
  | _ => rfl

/-- A status read is the only command outstanding at the gate's check and at the poll (R27). -/
theorem status_of_atSiteOf {s : State} {i : Instr} (h : s.atSiteOf i) (hp : s.phase = .sWeRs ∨ s.phase = .sPoll) :
    i = .readStatusRegister1 := by
  obtain ⟨L, hL, hs⟩ := h
  obtain ⟨rfl, -⟩ := atSite_iff.1 hs
  rcases hp with hp | hp <;> rw [hp] at hL <;> cases i <;> simp_all [Instr.sites]

/-- Settles O46: an error answer writes none of these registers, an Ok answer those the site's continuation writes. -/
theorem frameOfTheStepRegisters : Obligations.FrameOfTheStepRegisters := by
  intro i s t h hi
  have hsite : s.atSiteOf i := ((exec_wire_answers hi).1 ⟨t, h⟩).2
  obtain ⟨-, rfl⟩ := exec_wire hi h
  rcases exchange_cases (Chip.react i) s.phase.resume s with ⟨p, -, he⟩ | ⟨-, he⟩
  · rw [he]
    exact ⟨fun _ => rfl, fun _ _ => rfl, fun _ _ => ⟨rfl, rfl, rfl, rfl, rfl⟩, rfl⟩
  · have hpoll := resume_pollRegs s.phase (Chip.react i s.choice s.chipNow).2
      { s.consume with chip := (Chip.react i s.choice s.chipNow).1 }
    have hstep := resume_stepRegs (L := s.phase) (Chip.react i s.choice s.chipNow).2
      { s.consume with chip := (Chip.react i s.choice s.chipNow).1 }
    rw [← he] at hpoll hstep
    simp only [State.pollRegs, State.stepRegs, Prod.mk.injEq, State.consume_sr, State.consume_pollcnt,
      State.consume_unitEnd] at hpoll hstep
    obtain ⟨hsr, hcount, hend⟩ := hpoll
    refine ⟨fun hne => ?_, fun hne hcmd => ?_, hstep, hend⟩
    · rw [hsr, if_neg fun hp => hne (status_of_atSiteOf hsite hp)]
    · have hp : s.phase ≠ .sPoll := fun hp => hne (status_of_atSiteOf hsite (.inr hp))
      rw [hcount, hcmd, if_neg Bool.false_ne_true, if_neg hp]

end Sys2Proof.Machine

namespace Sys2Proof.Machine

open Config

/-! ## What a byte of the array reads as after a program or an erase -/

/-- A store changes the byte it names, and only if the array has that byte (R64). -/
theorem Memory.read_write_if {m : Memory} (a : Nat) (v : Byte) (b : Nat) (hm : Memory.wf m) :
    Memory.read (Memory.write m a v) b = if b = a ∧ a < capacity then v else Memory.read m b := by
  by_cases ha : a < capacity
  · simp [Memory.read_write v b hm ha, ha]
  · simp [Memory.write, ha]

/-- After a program each byte of its range in the array is the AND of old and new; the others are as before (R74). -/
theorem Memory.read_program {m : Memory} (x : Nat) (d : List Byte) (a : Nat) (hm : Memory.wf m) :
    Memory.read (Memory.program m x d) a =
      if x ≤ a ∧ a < x + d.length ∧ a < capacity then Memory.read m a &&& d.getD (a - x) 0 else Memory.read m a := by
  induction d generalizing m x with
  | nil => exact (if_neg (by simp; omega)).symm
  | cons v d ih =>
    rw [Memory.program_cons, ih (x + 1) (Memory.write_wf x _ hm), Memory.read_write_if x _ a hm]
    by_cases hax : a = x
    · subst hax
      simp
    · have shift : x ≤ a → a - x = (a - (x + 1)) + 1 := by omega
      have range : x + 1 ≤ a ∧ a < x + 1 + d.length ∧ a < capacity ↔
          x ≤ a ∧ a < x + (v :: d).length ∧ a < capacity := by
        rw [List.length_cons]; omega
      simp only [hax, false_and, if_false, range]
      split
      next h => rw [shift h.1, List.getD_cons_succ]
      · rfl

/-- After an erase each byte of its range is 0xFF; the others are as before (R75). -/
theorem Memory.read_erase (m : Memory) (base size a : Nat) :
    Memory.read (Memory.erase m base size) a =
      if base ≤ a ∧ a < base + size then erasedByte else Memory.read m a := by
  induction m with
  | nil => simp [Memory.erase, Memory.unlisted]
  | cons c m ih =>
    unfold Memory.erase at ih ⊢
    by_cases hout : c.1 < base ∨ base + size ≤ c.1
    · rw [List.filter_cons_of_pos (by simpa using hout), Memory.read_cons, Memory.read_cons, ih]
      by_cases hca : c.1 = a
      · rw [if_pos hca, if_pos hca, if_neg (by omega)]
      · rw [if_neg hca, if_neg hca]
    · rw [List.filter_cons_of_neg (by simpa using hout), ih, Memory.read_cons]
      by_cases hin : base ≤ a ∧ a < base + size
      · rw [if_pos hin, if_pos hin]
      · rw [if_neg hin, if_neg hin, if_neg (by omega)]

/-- A completed operation changes no byte outside its range (R74, R75). -/
theorem ChipOp.read_apply_of_not_covers {m : Memory} {op : ChipOp} {a : Nat} (hm : Memory.wf m)
    (h : op.covers a = false) : Memory.read (op.apply m) a = Memory.read m a := by
  cases op with
  | program x d =>
    simp only [ChipOp.covers, Bool.and_eq_false_iff, decide_eq_false_iff_not] at h
    exact (Memory.read_program x d a hm).trans (if_neg (by omega))
  | erase base size =>
    simp only [ChipOp.covers, Bool.and_eq_false_iff, decide_eq_false_iff_not] at h
    exact (Memory.read_erase m base size a).trans (if_neg (by omega))

/-! ## What the chip leaves as it is -/

theorem Chip.settle_of_done {ch : Chip} {c : BusChoice} (hb : ch.busy = true) (hd : c.done = true) :
    ch.settle c = ch.complete c := by
  simp [Chip.settle, hb, hd]

@[simp] theorem Chip.settle_poweredDown (c : BusChoice) (ch : Chip) : (ch.settle c).poweredDown = ch.poweredDown := by
  unfold Chip.settle
  split <;> rfl

/-- What completes before an exchange changes only bytes of the operation in flight (R74, R75). -/
theorem Chip.read_settle {ch : Chip} {c : BusChoice} {a : Nat} (hm : Memory.wf ch.arr)
    (h : ∀ op, ch.busy = true → c.done = true → ch.inflight = some op → op.covers a = false) :
    Memory.read (ch.settle c).arr a = Memory.read ch.arr a := by
  by_cases hs : ch.busy = true ∧ c.done = true
  · rw [Chip.settle_of_done hs.1 hs.2]
    cases hop : ch.inflight with
    | none => simp [Chip.complete, hop]
    | some op => simpa [Chip.complete, hop] using ChipOp.read_apply_of_not_covers hm (h op hs.1 hs.2 hop)
  · simp [Chip.settle, hs]

theorem Chip.command_busy {ch : Chip} (n : Nat) (effect : Chip → Chip × List Byte) (c : BusChoice)
    (hb : ch.busy = true) : Chip.command n effect c ch = (ch, c.received n) := by
  simp [Chip.command, hb]

@[simp] theorem Chip.readStatusRegister1_chip (c : BusChoice) (ch : Chip) : (Chip.readStatusRegister1 c ch).1 = ch := by
  unfold Chip.readStatusRegister1
  split <;> rfl

/-- Settles O41: a busy chip stays as it is at these commands, and the status read changes no chip. -/
theorem busyChipIgnoresCommands : Obligations.BusyChipIgnoresCommands := by
  intro i c ch hb hi
  have command (n : Nat) (effect : Chip → Chip × List Byte) : (Chip.command n effect c ch).1 = ch := by
    rw [Chip.command_busy n effect c hb]
  cases i with
  | reset => exact absurd rfl hi
  | readStatusRegister1 => exact Chip.readStatusRegister1_chip c ch
  | releasePowerDown => simp [Chip.react, Chip.releasePowerDown, hb]
  | pageProgram | readData | writeEnable | sectorErase | blockErase32K | uniqueId | blockErase64K | chipErase
  | enableReset | powerDown => exact command _ _
  | _ => rfl

/-- Settles O42: what a byte reads as after completion is what it reads as after the operation in flight. -/
theorem completionAppliesTheOperation : Obligations.CompletionAppliesTheOperation := by
  intro c ch hb hd hm
  dsimp only
  rw [Chip.settle_of_done hb hd]
  have arr {op : ChipOp} (h : ch.inflight = some op) : (ch.complete c).arr = op.apply ch.arr := by
    simp [Chip.complete, h]
  have wel {op : ChipOp} (h : ch.inflight = some op) : (ch.complete c).wel = Chip.latchAfter c (some op) := by
    simp [Chip.complete, h]
  refine ⟨rfl, rfl, rfl, fun h => by simp [Chip.complete, h], fun x d h hne => ?_, fun base size h => ?_,
    fun x d h hcap a => ?_, fun base size h a => ?_⟩
  · obtain ⟨v, d, rfl⟩ := List.exists_cons_of_ne_nil hne
    exact (wel h).trans (Chip.latchAfter_program c x v d)
  · exact (wel h).trans (Chip.latchAfter_erase c base size)
  · have inside : x ≤ a ∧ a < x + d.length ∧ a < capacity ↔ x ≤ a ∧ a < x + d.length := by
      unfold capacity; omega
    rw [arr h, ChipOp.apply, Memory.read_program x d a hm]
    simp only [inside]
  · rw [arr h, ChipOp.apply, Memory.read_erase]

/-- Settles O43: the AND with an erased byte is the byte programmed. -/
theorem programOverErasedReadsBack : Obligations.ProgramOverErasedReadsBack := by
  intro m x d hm hcap herased
  refine List.ext_getElem (Memory.readRange_length ..) fun i _ hi => ?_
  simp only [Memory.readRange, List.getElem_map, List.getElem_range, ChipOp.apply]
  rw [Memory.read_program x d _ hm, if_pos (by unfold capacity; omega), herased i hi, Nat.add_sub_cancel_left,
    List.getD_eq_getElem d 0 hi]
  exact BitVec.allOnes_and

/-! ## The chip after an instruction and after a step -/

/-- After the answer to a wire command the chip is any (Err), or has reacted to it (Ok). -/
theorem exec_wire_chip {i : Instr} {s t : State} (hi : i.hostOp = none) (h : exec i s = .next t) :
    (∃ p, s.choice.err = some p ∧ t.chip = s.chip.scramble s.choice) ∨
      (s.choice.err = none ∧ t.chip = (Chip.react i s.choice s.chipNow).1) := by
  obtain ⟨hserves, rfl⟩ := exec_wire hi h
  rcases exchange_cases (Chip.react i) s.phase.resume s with ⟨p, hp, he⟩ | ⟨hok, he⟩ <;> rw [he]
  · exact .inl ⟨p, hp, rfl⟩
  · exact .inr ⟨hok, (continues_resume (s := { s.consume with chip := _ }) _ hserves).chip⟩

theorem exec_host_chip {i : Instr} {s t : State} (hi : i.hostOp ≠ none) (h : exec i s = .next t) : t.chip = s.chip := by
  rcases exec_host_cases hi h with ⟨-, rfl⟩ | ⟨op, a, b, -, -, hc⟩
  · rfl
  · exact hc.chip

/-- Settles O45: no reaction but an accepted PowerDown's touches the array, so only what completes before it does. -/
theorem memoryChangesOnlyAtCompletion : Obligations.MemoryChangesOnlyAtCompletion := by
  intro i s t a h hok hm hpd hcovers
  by_cases hi : i.hostOp = none
  · rcases exec_wire_chip hi h with ⟨p, hp, -⟩ | ⟨-, hchip⟩
    · simp [hok] at hp
    · have arr : t.chip.arr = s.chipNow.arr := by
        rw [hchip]
        rcases Chip.react_arr i s.choice s.chipNow with harr | ⟨rfl, -⟩
        · exact harr
        · rw [busyChipIgnoresCommands .powerDown _ _ (hpd rfl) (by decide)]
      rw [arr, State.chipNow, Chip.read_settle hm hcovers]
  · rw [exec_host_chip hi h]

/-- Every instruction keeps the memory's canonical form (R50, R52). -/
theorem exec_wf {i : Instr} {s t : State} (hm : Memory.wf s.chip.arr) (h : exec i s = .next t) :
    Memory.wf t.chip.arr := by
  by_cases hi : i.hostOp = none
  · rcases exec_wire_chip hi h with ⟨p, -, hchip⟩ | ⟨-, hchip⟩ <;> rw [hchip]
    · exact Chip.scramble_wf _ _
    · exact Chip.react_wf i _ (Chip.settle_wf _ hm)
  · rw [exec_host_chip hi h]
    exact hm

/-- Settles O60: a block reset, waiting and every instruction keep it. -/
theorem everyStepKeepsTheMemoryForm : Obligations.EveryStepKeepsTheMemoryForm := by
  intro s t hm h
  rcases step_cases h with ⟨ok, -, rfl⟩ | ⟨-, ⟨-, -, rfl⟩ | ⟨r, rest, i, -, -, -, he⟩ | ⟨e, i, -, -, -, he⟩⟩
  · exact abandonExchange_wf (s := s.dropResetInput) hm
  · exact hm
  · exact exec_wf (s := { s.dropResetInput with offers := rest }) hm he
  · exact exec_wf (s := s.dropResetInput) hm he

/-! ## What is outstanding -/

/-- Settles O59: no exchange is outstanding in IDLE or CTLFAULT, and at a site it is the site's command. -/
theorem outstandingExchangeIsWellFormed : Obligations.OutstandingExchangeIsWellFormed := by
  intro s e h hbus
  have hp : s.phase.accepts = false := by
    by_contra ha
    have := siteExchange_of_accepts (Bool.eq_true_of_not_eq_false ha)
    rw [← h.bus, hbus] at this
    simp at this
  obtain ⟨e', i, hbus', henc, hout⟩ := h.outstanding_exchange hp
  obtain rfl : e = e' := Option.some.inj (hbus.symm.trans hbus')
  exact ⟨i, henc, (outstanding_iff.1 hout).1, hout⟩

/-- Each opcode's decoder accepts nothing but that opcode's command. -/
theorem hostOp_of_decodeBody {o : Opcode} {rest : List Byte} {n : Nat} {i : Instr} (h : decodeBody o rest n = .ok i) :
    i.hostOp = none := by
  cases o <;> simp only [decodeBody, decodeAddressed, decodePlain] at h <;> split at h <;> cases h <;> rfl

/-- What an exchange decodes to is a wire command (R3). -/
theorem hostOp_of_decodeExchange {e : Exchange} {i : Instr} (h : decodeExchange e = .ok i) : i.hostOp = none := by
  unfold decodeExchange at h
  split at h
  · cases h
  · split at h
    · cases h
    · split at h
      · exact hostOp_of_decodeBody h
      · cases h

/-! ## A step at a site -/

@[simp] theorem State.dropResetInput_choice (s : State) : s.dropResetInput.choice = s.choice := rfl
@[simp] theorem State.dropResetInput_chipNow (s : State) : s.dropResetInput.chipNow = s.chipNow := rfl

/-- Out of a block reset a step at a site is the answer to a wire command of that site (R27, R140). -/
theorem step_at_site {s t : State} (h : step s = .next t) (hn : s.noReset) (ha : s.phase.accepts = false) :
    s.phase.serves s.op = true ∧
      ∃ i, s.atSiteOf i ∧ t = s.dropResetInput.exchange (Chip.react i) s.phase.resume := by
  rcases step_cases h with ⟨ok, hr, -⟩ | ⟨-, ⟨hacc, -⟩ | ⟨r, rest, i, hacc, -⟩ | ⟨e, i, -, -, hd, he⟩⟩
  · exact absurd hr (hn ok)
  · simp [ha] at hacc
  · simp [ha] at hacc
  · have hi := hostOp_of_decodeExchange hd
    obtain ⟨hserves, ht⟩ := exec_wire hi he
    exact ⟨hserves, i, ((exec_wire_answers hi).1 ⟨t, he⟩).2, ht⟩

/-! ## The completion poll -/

theorem Phase.not_accepts_of_isCommand {L : Phase} (h : L.isCommand = true) : L.accepts = false := by
  cases L <;> simp_all [Phase.isCommand, Phase.accepts]

/-- After a program or erase command the sequencer starts the completion poll (R144, R162, R180). -/
theorem Phase.resume_of_isCommand {L : Phase} (h : L.isCommand = true) (rx : List Byte) :
    L.resume rx = State.waitReady := by
  cases L <;> simp_all [Phase.isCommand, Phase.resume]

/-- Settles O53: the answer Err ends the request, the answer Ok starts the poll. -/
theorem pollFollowsEveryCommand : Obligations.PollFollowsEveryCommand := by
  intro s t h hn hcmd
  obtain ⟨hserves, i, -, rfl⟩ := step_at_site h hn (Phase.not_accepts_of_isCommand hcmd)
  rcases exchange_cases (Chip.react i) s.phase.resume s.dropResetInput with ⟨p, hp, hx⟩ | ⟨-, hx⟩ <;> rw [hx]
  · exact .inr ⟨p, hp, Phase.afterResponse_of_serves hserves, rfl⟩
  · rw [Phase.resume_of_isCommand hcmd]
    exact .inl ⟨rfl, rfl, rfl⟩

/-- While the status byte shows BUSY the poll goes on, or ends with Timeout (R144). -/
theorem afterPoll_of_busy {s : State} {rx : List Byte} (h : statusBusy (rx.getD 1 0) = true) :
    (s.afterPoll rx).phase = .sPoll ∨ (s.afterPoll rx).responses = s.responses ++ [⟨.timeout, 0, [], none⟩] := by
  have hsr : statusBusy (s.readStatus rx).sr = true := h
  unfold State.afterPoll
  simp only [hsr, if_true]
  split
  · split
    · exact .inr rfl
    · exact .inl rfl
  · exact .inl rfl

/-- Settles O54: the status byte of a chip that is not powered down shows its BUSY, which the poll tests. -/
theorem pollEndsOnlyWhenNotBusy : Obligations.PollEndsOnlyWhenNotBusy := by
  intro s t h hn hp hpd
  obtain ⟨-, i, hsite, rfl⟩ := step_at_site h hn (by rw [hp]; rfl)
  obtain rfl := status_of_atSiteOf hsite (.inr hp)
  have hup : s.chipNow.poweredDown = false := (Chip.settle_poweredDown _ _).trans hpd
  rw [hp, show Phase.sPoll.resume = State.afterPoll from rfl]
  rcases exchange_cases (Chip.react .readStatusRegister1) State.afterPoll s.dropResetInput with ⟨p, -, hx⟩ | ⟨-, hx⟩ <;>
    rw [hx]
  · exact .inr (.inr (.inl ⟨p, rfl⟩))
  · cases hb : s.chipNow.busy with
    | false => exact .inr (.inl (by simp [(continues_afterPoll _ _).chip, Chip.react, hb]))
    | true =>
      refine (afterPoll_of_busy ?_).imp id fun ht => .inr (.inr ht)
      simp [Chip.react, Chip.readStatusRegister1, hup, hb]

/-! ## Frames and stops of the wire commands -/

/-- The address field of an offset is its low three bytes, most significant first (R51, R54). -/
theorem addrBytes_wireAddr (x : Word) :
    addrBytes (wireAddr x.toNat) = [x.extractLsb' 16 8, x.extractLsb' 8 8, x.extractLsb' 0 8] := by
  have field {start : Nat} (h : start + 8 ≤ 24) : (wireAddr x.toNat).extractLsb' start 8 = x.extractLsb' start 8 :=
    BitVec.extractLsb'_setWidth_of_le (b := x) h
  simp only [addrBytes, List.cons.injEq, and_true]
  exact ⟨field (by decide), field (by decide), field (by decide)⟩

/-- Settles O5: each frame is the opcode byte and the address field. -/
theorem addressGoesMostSignificantFirst : Obligations.AddressGoesMostSignificantFirst := by
  intro x d n
  have frame (o : Opcode) : frameAddr o (wireAddr x.toNat) = o.byte :: _ := congrArg (o.byte :: ·) (addrBytes_wireAddr x)
  exact ⟨congrArg (· ++ d) (frame .pageProgram), frame .readData, frame .sectorErase, frame .blockErase32K,
    frame .blockErase64K⟩

/-- Settles O33: the operands are checked before the site. -/
theorem commandsOutsideTheArrayStop : Obligations.CommandsOutsideTheArrayStop := by
  intro x d n s
  refine ⟨fun h => if_pos h, fun h => if_pos h, fun hin hpage => ?_, fun h => ⟨if_pos h, if_pos h, if_pos h⟩⟩
  exact (if_neg (Nat.not_lt_of_le hin)).trans (if_pos hpage)

end Sys2Proof.Machine

namespace Sys2Proof.Machine

open Config

/-! ## Encoding and decoding are inverse -/

/-- A request with the number of data bytes of its op decodes to the op's instruction (R21, R102). -/
theorem decodeRequest_request {op : HostOp} {a b : Word} {data : List Byte} (h : data.length = op.dataLength b) :
    decodeRequest (op.request a b data) = .ok (op.instr a b data) := by
  rw [decodeRequest, if_pos (HostOp.request_reserved ..)]
  simp only [HostOp.request_op]
  exact if_pos h

/-- A request that encodes a well-formed instruction decodes to it (R102). -/
theorem decodeRequest_of_encode {i : Instr} {r : HostRequest} (hw : i.WellFormed) (h : encode i = .request r) :
    decodeRequest r = .ok i := by
  cases i <;> simp only [encode, Encoded.request.injEq, reduceCtorEq] at h <;> subst h
  case hostWrite a data =>
    have hlen : data.length < 2 ^ 32 := of_decide_eq_true hw
    exact decodeRequest_request (by rw [HostOp.dataLength, BitVec.toNat_ofNat, Nat.mod_eq_of_lt hlen])
  all_goals exact decodeRequest_request rfl

/-- Settles O1: each interface reads back what the encoder writes on it. -/
theorem decodeInvertsEncode : Obligations.DecodeInvertsEncode := by
  intro i hw
  cases he : encode i with
  | exchange e => exact decodeExchange_of_encode he
  | request r => exact decodeRequest_of_encode hw he

/-- The bytes an addressed command accepts are those of one address (R92). -/
theorem decodeAddressed_ok {o : Opcode} {rest : List Byte} {k : Addr → Instr} {i : Instr}
    (h : decodeAddressed o rest k = .ok i) : ∃ x, rest = addrBytes x ∧ i = k x := by
  unfold decodeAddressed at h
  split at h
  next b m l => exact ⟨joinAddr b m l, (addrBytes_joinAddr b m l).symm, (Except.ok.inj h).symm⟩
  · simp at h

/-- An F0 command accepts its padding alone (R94). -/
theorem decodePlain_ok {o : Opcode} {rest : List Byte} {i j : Instr} (h : decodePlain o rest j = .ok i) :
    rest = o.padding ∧ i = j := by
  unfold decodePlain at h
  split at h
  next hr => exact ⟨hr, (Except.ok.inj h).symm⟩
  · simp at h

/-- PageProgram accepts the bytes of one address, then any data (R121). -/
theorem decodeBody_pageProgram_ok {rest : List Byte} {n : Nat} {i : Instr}
    (h : decodeBody .pageProgram rest n = .ok i) : ∃ x d, rest = addrBytes x ++ d ∧ i = .pageProgram x d := by
  simp only [decodeBody] at h
  split at h
  next b m l d => exact ⟨joinAddr b m l, d, by simp, (Except.ok.inj h).symm⟩
  · simp at h

/-- An accepted exchange begins with an opcode byte and has that opcode's shape, receive count and body (R90 to R92). -/
theorem decodeExchange_ok {e : Exchange} {i : Instr} (h : decodeExchange e = .ok i) :
    ∃ o rest, e.tx = o.byte :: rest ∧ e.shape = o.shape ∧ e.countOk = true ∧ decodeBody o rest e.n = .ok i := by
  unfold decodeExchange at h
  split at h
  · simp at h
  next b rest htx =>
    split at h
    · simp at h
    next o ho =>
      split at h
      next hs => exact ⟨o, rest, by rw [htx, Opcode.byte_of_ofByte ho], hs.1, hs.2, h⟩
      · simp at h

/-- The encoder writes the exchange whose body the decoder accepted: the opcode gives the shape, and the shape the
receive count (R23, R91). -/
theorem encode_of_decodeBody {o : Opcode} {rest : List Byte} {n : Nat} {i : Instr}
    (hc : (Exchange.mk o.shape (o.byte :: rest) n).countOk = true) (h : decodeBody o rest n = .ok i) :
    encode i = .exchange ⟨o.shape, o.byte :: rest, n⟩ := by
  cases o with
  | pageProgram =>
    obtain ⟨x, d, rfl, rfl⟩ := decodeBody_pageProgram_ok h
    obtain rfl : n = 0 := of_decide_eq_true hc
    rfl
  | readData =>
    obtain ⟨x, rfl, rfl⟩ := decodeAddressed_ok (o := .readData) (k := fun x => .readData x n) h
    rfl
  | sectorErase | blockErase32K | blockErase64K =>
    obtain ⟨x, rfl, rfl⟩ := decodeAddressed_ok h
    obtain rfl : n = 0 := of_decide_eq_true hc
    rfl
  | readStatusRegister1 =>
    obtain ⟨rfl, rfl⟩ := decodePlain_ok h
    obtain rfl : n = 2 := of_decide_eq_true hc
    rfl
  | uniqueId =>
    obtain ⟨rfl, rfl⟩ := decodePlain_ok h
    obtain rfl : n = idFrameLen := of_decide_eq_true hc
    rfl
  | writeEnable | chipErase | enableReset | reset | powerDown | releasePowerDown =>
    obtain ⟨rfl, rfl⟩ := decodePlain_ok h
    obtain rfl : n = 0 := of_decide_eq_true hc
    rfl

/-- An accepted exchange is the encoding of its command (R90 to R94). -/
theorem encode_of_decodeExchange {e : Exchange} {i : Instr} (h : decodeExchange e = .ok i) : encode i = .exchange e := by
  obtain ⟨o, rest, htx, hshape, hc, hb⟩ := decodeExchange_ok h
  obtain ⟨shape, tx, n⟩ := e
  subst htx hshape
  exact encode_of_decodeBody hc hb

/-- A W0 with bits 31..4 zero is the one of the op it holds (R102). -/
theorem code_setWidth_ofCode {w : Word} (hres : w.extractLsb' 4 28 = 0#28) :
    (HostOp.ofCode (w.extractLsb' 0 4)).code.setWidth 32 = w := by
  have hhi := congrArg BitVec.toNat hres
  rw [HostOp.code_ofCode]
  apply BitVec.eq_of_toNat_eq
  simp only [BitVec.toNat_setWidth, BitVec.extractLsb'_toNat, Nat.shiftRight_eq_div_pow, BitVec.toNat_ofNat] at hhi ⊢
  omega

/-- An op's instruction is encoded with the op's code: the data bytes of WRITE give its b, no other op has any
(R21, R101). -/
theorem encode_instr {op : HostOp} {a b : Word} {data : List Byte} (h : data.length = op.dataLength b) :
    encode (op.instr a b data) = .request (op.request a b data) := by
  by_cases hop : op = .write
  · subst hop
    have hb : BitVec.ofNat 32 data.length = b := by simp [h, HostOp.dataLength]
    simp only [HostOp.instr, encode, hb]
  · rw [dataLength_of_ne_write b hop, List.length_eq_zero_iff] at h
    subst h
    cases op with
    | write => exact absurd rfl hop
    | _ => rfl

/-- An accepted request is the encoding of its instruction (R102). -/
theorem encode_of_decodeRequest {r : HostRequest} {i : Instr} (h : decodeRequest r = .ok i) : encode i = .request r := by
  obtain ⟨hres, op, rfl, hlen, rfl⟩ := decodeRequest_ok h
  rw [encode_instr hlen, HostOp.request, code_setWidth_ofCode hres]

/-- Settles O2: what each interface accepts is the encoding of what is read from it. -/
theorem encodeInvertsDecode : Obligations.EncodeInvertsDecode := by
  intro x i h
  cases x with
  | exchange e => exact encode_of_decodeExchange h
  | request r => exact encode_of_decodeRequest h

/-- Settles O3: the words are closed, so the decoder computes what each stands for. -/
theorem wordsOfTheSpecDecode : Obligations.WordsOfTheSpecDecode := by
  unfold Obligations.WordsOfTheSpecDecode
  decide

/-! ## The command of each mutating request -/

/-- ERASE counts its units in the register unit (R185). -/
theorem unitBase_of_erase {s : State} (h : s.op = .erase) : s.unitBase = s.unit.toNat * sectorSize := by
  simp [State.unitBase, State.unitIndex, HostOp.unitSize, h]

/-- A per-unit erase has its index in operand a (R181 to R183). -/
theorem unitBase_of_perUnit {s : State} {op : HostOp} (h : s.op = op) (he : op ≠ .erase) (hc : op ≠ .eraseChip) :
    s.unitBase = s.a.toNat * op.unitSize := by
  simp [State.unitBase, State.unitIndex, h, he, hc]

/-- Settles O28: the op selects the command, and the index and the size of the unit its address. -/
theorem commandOfEachRequest : Obligations.CommandOfEachRequest := by
  intro s
  refine ⟨fun h => ?_, fun h => ?_, fun h => ?_, fun h => ?_, fun h => ?_, fun h => ?_⟩
  · simp [State.command, State.chunkData, h]
  · simp [State.command, unitBase_of_erase h, h]
  · simp [State.command, unitBase_of_perUnit h, HostOp.unitSize, h]
  · simp [State.command, unitBase_of_perUnit h, HostOp.unitSize, h]
  · simp [State.command, unitBase_of_perUnit h, HostOp.unitSize, h]
  · simp [State.command, h]

end Sys2Proof.Machine

namespace Sys2Proof

/-! ## The opcode map -/

/-- The inverse finds each opcode by its byte and nothing else (R134). -/
theorem Opcode.ofByte_eq_some_iff {b : Byte} {o : Opcode} : Opcode.ofByte b = some o ↔ o.byte = b :=
  ⟨Opcode.byte_of_ofByte, fun h => h ▸ Opcode.ofByte_byte o⟩

theorem Opcode.mem_all (o : Opcode) : o ∈ Opcode.all := by
  cases o <;> decide

/-- The byte values that have an opcode are the thirteen bytes of R91. -/
theorem Opcode.bytes_with_opcode :
    ((List.range 256).filter fun k => (Opcode.ofByte (BitVec.ofNat 8 k)).isSome).Perm
      (Opcode.all.map fun o => o.byte.toNat) := by
  refine (List.perm_ext_iff_of_nodup (List.nodup_range.filter _) (by decide)).2 fun k => ?_
  simp only [List.mem_filter, List.mem_range, Option.isSome_iff_exists, Opcode.ofByte_eq_some_iff, List.mem_map]
  constructor
  · rintro ⟨hk, o, ho⟩
    exact ⟨o, Opcode.mem_all o, by rw [ho, BitVec.toNat_ofNat, Nat.mod_eq_of_lt hk]⟩
  · rintro ⟨o, -, rfl⟩
    exact ⟨o.byte.isLt, o, by simp⟩

end Sys2Proof

namespace Sys2Proof.Machine

open Config

/-- Settles O4: thirteen of the 256 byte values have an opcode, so the other 243 have none. -/
theorem opcodeMapIsClosed : Obligations.OpcodeMapIsClosed := by
  refine ⟨fun _ _ => Opcode.ofByte_eq_some_iff, Opcode.mem_all, rfl, ?_⟩
  have total := (List.range 256).length_eq_length_filter_add fun k => (Opcode.ofByte (BitVec.ofNat 8 k)).isSome
  have mapped := Opcode.bytes_with_opcode.length_eq
  have thirteen : Opcode.all.length = 13 := rfl
  simp only [Option.not_isSome, List.length_range, List.length_map] at total mapped
  omega

/-! ## How a program or an erase starts -/

/-- A chip that is neither busy nor powered down executes the command. -/
theorem Chip.command_ready {ch : Chip} (n : Nat) (effect : Chip → Chip × List Byte) (c : BusChoice)
    (hb : ch.busy = false) (hp : ch.poweredDown = false) : Chip.command n effect c ch = effect ch := by
  simp [Chip.command, hb, hp]

/-- With or without its effect, a command that would change nothing leaves the chip as it is. -/
theorem Chip.command_ignored {ch : Chip} {effect : Chip → Chip × List Byte} (n : Nat) (c : BusChoice)
    (h : (effect ch).1 = ch) : (Chip.command n effect c ch).1 = ch :=
  Chip.command_keeps (P := (· = ch)) n effect c rfl h

/-- With data bytes or with none, PageProgram changes BUSY, WEL and what is in flight at most (R74). -/
theorem Chip.pageProgram_frame (x : Addr) (d : List Byte) (c : BusChoice) (ch : Chip) :
    (Chip.pageProgram x d c ch).1 =
      { ch with
        busy := (Chip.pageProgram x d c ch).1.busy
        wel := (Chip.pageProgram x d c ch).1.wel
        inflight := (Chip.pageProgram x d c ch).1.inflight } := by
  refine Chip.command_keeps (P := fun k => k = { ch with busy := k.busy, wel := k.wel, inflight := k.inflight }) 0 _ c rfl ?_
  split
  · rfl
  · split <;> rfl

/-- Without the latch a program of at least one byte is ignored (R74). -/
theorem Chip.pageProgram_unlatched {d : List Byte} {ch : Chip} (x : Addr) (c : BusChoice) (hd : d ≠ [])
    (hw : ch.wel = false) : (Chip.pageProgram x d c ch).1 = ch :=
  Chip.command_ignored 0 c (by simp [hd, hw])

/-- With the latch a program of at least one byte is in flight (R74). -/
theorem Chip.pageProgram_latched {d : List Byte} {ch : Chip} (x : Addr) (c : BusChoice) (hb : ch.busy = false)
    (hp : ch.poweredDown = false) (hd : d ≠ []) (hw : ch.wel = true) :
    (Chip.pageProgram x d c ch).1 = ch.start (.program x.toNat d) := by
  simp [Chip.pageProgram, Chip.command_ready 0 _ c hb hp, hd, hw]

/-- An erase does not touch the array before it completes (R75). -/
theorem Chip.eraseUnit_arr (base size : Nat) (c : BusChoice) (ch : Chip) :
    (Chip.eraseUnit base size c ch).1.arr = ch.arr :=
  Chip.command_keeps (P := fun k => k.arr = ch.arr) 0 _ c rfl (by split <;> rfl)

/-- A busy chip ignores an erase (R73). -/
theorem Chip.eraseUnit_busy {ch : Chip} (base size : Nat) (c : BusChoice) (hb : ch.busy = true) :
    (Chip.eraseUnit base size c ch).1 = ch := by
  rw [Chip.eraseUnit, Chip.command_busy 0 _ c hb]

/-- Without the latch an erase is ignored (R75). -/
theorem Chip.eraseUnit_unlatched {ch : Chip} (base size : Nat) (c : BusChoice) (hw : ch.wel = false) :
    (Chip.eraseUnit base size c ch).1 = ch :=
  Chip.command_ignored 0 c (by simp [hw])

/-- With the latch the erase of the unit is in flight (R75). -/
theorem Chip.eraseUnit_latched {ch : Chip} (base size : Nat) (c : BusChoice) (hb : ch.busy = false)
    (hp : ch.poweredDown = false) (hw : ch.wel = true) :
    (Chip.eraseUnit base size c ch).1 = ch.start (.erase base size) := by
  simp [Chip.eraseUnit, Chip.command_ready 0 _ c hb hp, hw]

/-- A program or erase command answered Ok: the chip reacts, and the poll begins with pollcnt 0 (R144, R162, R180). -/
theorem exec_command {i : Instr} {L : Phase} {s : State} (hi : i.hostOp = none) (hin : Instr.inArray i)
    (hL : L ∈ Instr.sites i) (hcmd : L.isCommand = true) (hs : s.atSite L = true) (hok : s.choice.err = none) :
    exec i s = .next ({ s.consume with chip := (Chip.react i s.choice s.chipNow).1, pollcnt := 0 }.issue .sPoll
      Exchange.readStatusRegister1) := by
  obtain ⟨t, ht⟩ := (exec_wire_answers hi).2 ⟨hin, L, hL, hs⟩
  obtain ⟨-, rfl⟩ := exec_wire hi ht
  obtain ⟨rfl, -⟩ := atSite_iff.1 hs
  rw [ht, exchange_ok hok, Phase.resume_of_isCommand hcmd]
  rfl

/-- Settles O31: the chip of the next state is the one that has reacted to the program. -/
theorem pageProgramStartsTheProgram : Obligations.PageProgramStartsTheProgram := by
  intro x d s hphase hop hpage hcap hok
  have hs : s.atSite .sPp = true := atSite_iff.2 ⟨hphase, by rw [hop]; rfl⟩
  exact ⟨(Chip.pageProgram x d s.choice s.chipNow).1,
    exec_command rfl ⟨hcap, hpage⟩ (List.mem_singleton_self _) rfl hs hok,
    Chip.pageProgram_frame x d _ _,
    fun hb => busyChipIgnoresCommands (.pageProgram x d) _ _ hb nofun,
    fun _ hw hd => Chip.pageProgram_unlatched x _ hd hw,
    fun hb hp hw hd => Chip.pageProgram_latched x _ hb hp hd hw⟩

/-- An instruction with an erase range is a wire command of that site that erases that unit; its address is in the array if
the unit's first byte is (R125 to R129, R75). -/
theorem erase_of_eraseRange {i : Instr} {L : Phase} {base size : Nat} (h : eraseRange i = some (L, base, size)) :
    i.hostOp = none ∧ L ∈ Instr.sites i ∧ L.isCommand = true ∧ Chip.react i = Chip.eraseUnit base size ∧
      (base < capacity → Instr.inArray i) := by
  cases i <;> simp only [eraseRange, Option.some.injEq, Prod.mk.injEq, reduceCtorEq] at h <;> obtain ⟨rfl, rfl, rfl⟩ := h
  case chipErase => exact ⟨rfl, List.mem_singleton_self _, rfl, rfl, fun _ => trivial⟩
  case sectorErase x | blockErase32K x | blockErase64K x =>
    refine ⟨rfl, List.mem_singleton_self _, rfl, rfl, fun hbase => ?_⟩
    simp only [Instr.inArray, capacity, sectorSize, block32KSize, block64KSize] at hbase ⊢
    omega

/-- Settles O32: the four commands are one erase, of the unit of their range. -/
theorem eraseCommandsStartTheErase : Obligations.EraseCommandsStartTheErase := by
  intro i L base size s hrange hbase hs hok
  obtain ⟨hi, hL, hcmd, hreact, hin⟩ := erase_of_eraseRange hrange
  have uid : (Chip.react i s.choice s.chipNow).1.uid = s.chip.uid := by
    rw [Chip.react_uid, State.chipNow, Chip.settle_uid]
  refine ⟨_, exec_command hi (hin hbase) hL hcmd hs hok, ?_, uid, ?_⟩ <;> rw [hreact]
  · exact Chip.eraseUnit_arr base size _ _
  · exact ⟨fun hb => Chip.eraseUnit_busy base size _ hb, fun _ hw => Chip.eraseUnit_unlatched base size _ hw,
      fun hb hp hw => Chip.eraseUnit_latched base size _ hb hp hw⟩

end Sys2Proof.Machine

namespace Sys2Proof.Machine

open Config

/-! ## The answer Ok at a site -/

/-- The state in which the exchange's choices are used up and the chip is ch (R140). -/
def State.reacted (s : State) (ch : Chip) : State := { s.consume with chip := ch }

@[simp] theorem State.reacted_phase (s : State) (ch : Chip) : (s.reacted ch).phase = s.phase := rfl
@[simp] theorem State.reacted_command (s : State) (ch : Chip) : (s.reacted ch).command = s.command := rfl

/-- A wire command answered Ok at one of its sites: the chip reacts and the sequencer goes on there (R27, R140). -/
theorem exec_ok {i : Instr} {L : Phase} {s : State} (hi : i.hostOp = none) (hin : Instr.inArray i)
    (hL : L ∈ Instr.sites i) (hs : s.atSite L = true) (hok : s.choice.err = none) :
    exec i s = .next (L.resume (Chip.react i s.choice s.chipNow).2 (s.reacted (Chip.react i s.choice s.chipNow).1)) := by
  obtain ⟨t, ht⟩ := (exec_wire_answers hi).2 ⟨hin, L, hL, hs⟩
  obtain ⟨-, rfl⟩ := exec_wire hi ht
  obtain ⟨rfl, -⟩ := atSite_iff.1 hs
  rw [ht, exchange_ok hok, State.reacted]

/-- A response to a request in progress leaves the block in IDLE (R22, R227). -/
theorem deliver_eq_answered {s : State} {op : HostOp} (r : Response) (h : s.phase.serves op = true) :
    s.deliver r = s.answered r := by
  simp only [State.deliver, State.answered, Phase.afterResponse_of_serves h]

theorem raise_eq_answered {s : State} {op : HostOp} (e : ReqError) (h : s.phase.serves op = true) :
    s.raise e = s.answered ⟨e.result, 0, [], e.carried⟩ := deliver_eq_answered _ h

/-! ## The write-enable gate -/

@[simp] theorem State.readStatus_command (s : State) (rx : List Byte) : (s.readStatus rx).command = s.command := rfl

theorem enterCommand_of_command {s : State} {L : Phase} {e : Exchange} (h : s.command = some (L, e)) :
    s.enterCommand = s.issue L e := by
  simp only [State.enterCommand, h]

theorem afterWriteEnable_of_verifyWe {s : State} (h : s.params.verifyWe = true) :
    s.afterWriteEnable = s.issue .sWeRs Exchange.readStatusRegister1 := if_pos h

theorem afterWriteEnable_of_not_verifyWe {s : State} (h : s.params.verifyWe = false) :
    s.afterWriteEnable = s.enterCommand := if_neg (Bool.not_eq_true _ ▸ h)

theorem afterGateStatus_of_wel {s : State} {rx : List Byte} (h : statusWel (rx.getD 1 0) = true) :
    s.afterGateStatus rx = (s.readStatus rx).enterCommand := if_pos h

theorem afterGateStatus_of_not_wel {s : State} {rx : List Byte} (h : statusWel (rx.getD 1 0) = false) :
    s.afterGateStatus rx = (s.readStatus rx).raise .writeEnableFail := if_neg (Bool.not_eq_true _ ▸ h)

/-- A chip that is neither busy nor powered down sets its latch (R72). -/
theorem Chip.writeEnable_ready {ch : Chip} (c : BusChoice) (hb : ch.busy = false) (hp : ch.poweredDown = false) :
    (Chip.writeEnable c ch).1 = { ch with wel := true } := by
  rw [Chip.writeEnable, Chip.command_ready 0 _ c hb hp]

/-- Settles O29: the chip of the next state is the one that has reacted to WriteEnable. -/
theorem writeEnableSetsTheLatch : Obligations.WriteEnableSetsTheLatch := by
  intro s hphase hmut hok
  have hexec : exec .writeEnable s = .next (s.reacted (Chip.writeEnable s.choice s.chipNow).1).afterWriteEnable :=
    exec_ok (i := .writeEnable) rfl trivial (List.mem_singleton_self _) (atSite_iff.2 ⟨hphase, hmut⟩) hok
  refine ⟨(Chip.writeEnable s.choice s.chipNow).1, fun hb => busyChipIgnoresCommands .writeEnable _ _ hb nofun,
    Chip.writeEnable_ready _, fun hv => ?_, fun hv => ?_⟩
  · rw [hexec, afterWriteEnable_of_verifyWe (s := s.reacted _) hv]
    rfl
  · obtain ⟨L, e, hcmd⟩ := exists_command hmut
    refine ⟨L, e, hcmd, ?_⟩
    rw [hexec, afterWriteEnable_of_not_verifyWe (s := s.reacted _) hv,
      enterCommand_of_command ((State.reacted_command s _).trans hcmd)]
    rfl

/-! ## The status read -/

/-- A chip that is not powered down sends its BUSY and its latch (R71, R142). -/
theorem Chip.statusBits_of_powered {ch : Chip} (c : BusChoice) (hp : ch.poweredDown = false) :
    statusBusy ((Chip.readStatusRegister1 c ch).2.getD 1 0) = ch.busy ∧
      statusWel ((Chip.readStatusRegister1 c ch).2.getD 1 0) = ch.wel := by
  simp [Chip.readStatusRegister1, hp]

/-- A status read answered Ok: the chip stays as it is, and the sequencer goes on with the bytes it sent (R71, R140). -/
theorem exec_status {L : Phase} {s : State} (hL : L ∈ Instr.sites .readStatusRegister1) (hs : s.atSite L = true)
    (hok : s.choice.err = none) :
    exec .readStatusRegister1 s =
      .next (L.resume (Chip.readStatusRegister1 s.choice s.chipNow).2 (s.reacted s.chipNow)) := by
  have hexec := exec_ok (i := .readStatusRegister1) rfl trivial hL hs hok
  rwa [Chip.react, Chip.readStatusRegister1_chip] at hexec

/-- Settles O30: only bit 1 of the status byte decides. -/
theorem gateTestsTheLatch : Obligations.GateTestsTheLatch := by
  intro s hphase hmut hok
  have hserves : s.phase.serves s.op = true := by rw [hphase]; exact hmut
  have hexec : exec .readStatusRegister1 s = .next ((s.reacted s.chipNow).afterGateStatus _) :=
    exec_status (by decide) (atSite_iff.2 ⟨hphase, hmut⟩) hok
  refine ⟨(Chip.readStatusRegister1 s.choice s.chipNow).2.getD 1 0, Chip.statusBits_of_powered _, fun hw => ?_,
    fun hw => ?_⟩
  · rw [hexec, afterGateStatus_of_not_wel hw, raise_eq_answered (op := s.op)]
    · rfl
    · exact hserves
  · obtain ⟨L, e, hcmd⟩ := exists_command hmut
    refine ⟨L, e, hcmd, ?_⟩
    rw [hexec, afterGateStatus_of_wel hw,
      enterCommand_of_command ((State.readStatus_command _ _).trans ((State.reacted_command s _).trans hcmd))]
    rfl

/-! ## The poll -/

/-- The state after a poll's status byte: sr holds it and the read is counted (R141, R144). -/
def State.polled (s : State) (rx : List Byte) : State := { s.readStatus rx with pollcnt := s.pollcnt + 1 }

@[simp] theorem State.polled_phase (s : State) (rx : List Byte) : (s.polled rx).phase = s.phase := rfl

theorem afterPoll_of_not_busy {s : State} {rx : List Byte} (h : statusBusy (rx.getD 1 0) = false) :
    s.afterPoll rx = (s.polled rx).afterReady := if_neg (Bool.not_eq_true _ ▸ h)

theorem afterPoll_of_spent {s : State} {rx : List Byte} {l : Nat} (h : statusBusy (rx.getD 1 0) = true)
    (hl : s.params.pollLimit.limit s.op.pollKind = some l) (hle : l ≤ s.pollcnt + 1) :
    s.afterPoll rx = (s.polled rx).raise .timeout := by
  have hsr : statusBusy (s.readStatus rx).sr = true := h
  unfold State.afterPoll
  simp only [hsr, if_true, State.readStatus_params, State.readStatus_op, hl, hle, State.polled]

theorem afterPoll_of_left {s : State} {rx : List Byte} (h : statusBusy (rx.getD 1 0) = true)
    (hl : ∀ l, s.params.pollLimit.limit s.op.pollKind = some l → s.pollcnt + 1 < l) :
    s.afterPoll rx = (s.polled rx).issue .sPoll Exchange.readStatusRegister1 := by
  have hsr : statusBusy (s.readStatus rx).sr = true := h
  unfold State.afterPoll
  simp only [hsr, if_true, State.readStatus_params, State.readStatus_op, State.polled]
  split
  next l hlim => exact if_neg (Nat.not_le_of_lt (hl l hlim))
  · rfl

/-- Settles O34: BUSY = 0 is tested first, then the budget. -/
theorem pollTestsBusyThenTheLimit : Obligations.PollTestsBusyThenTheLimit := by
  intro s hphase hop hok
  have hserves : s.phase.serves s.op = true := by simpa [hphase, Phase.serves] using hop
  have hexec : exec .readStatusRegister1 s = .next ((s.reacted s.chipNow).afterPoll _) :=
    exec_status (by decide) (atSite_iff.2 ⟨hphase, hphase ▸ hserves⟩) hok
  refine ⟨(Chip.readStatusRegister1 s.choice s.chipNow).2.getD 1 0,
    fun hp => (Chip.statusBits_of_powered _ hp).1, fun hb => ?_, fun hb l hl => ⟨fun hle => ?_, fun hlt => ?_⟩,
    fun hb hl => ?_⟩ <;> rw [hexec]
  · rw [afterPoll_of_not_busy hb]
    rfl
  · rw [afterPoll_of_spent (s := s.reacted _) hb hl hle, raise_eq_answered (op := s.op)]
    · rfl
    · rwa [State.polled_phase, State.reacted_phase]
  · rw [afterPoll_of_left (s := s.reacted _) hb fun m hm => Option.some.inj (hl.symm.trans hm) ▸ hlt]
    rfl
  · rw [afterPoll_of_left (s := s.reacted _) hb fun m hm => by cases hl.symm.trans hm]
    rfl

/-- Settles O35: the op selects the poll kind, the kind the budget. -/
theorem pollKindOfEachRequest : Obligations.PollKindOfEachRequest :=
  fun _ => ⟨rfl, rfl, rfl, rfl, rfl, rfl, rfl⟩

/-- Settles O40: BUSY and WEL stand below the six free bits. -/
theorem statusBitsAreBusyAndLatch : Obligations.StatusBitsAreBusyAndLatch := by
  refine fun busy wel free => ⟨statusBusy_statusByte .., statusWel_statusByte .., fun k hlo hhi => ?_⟩
  obtain ⟨j, rfl⟩ := Nat.exists_eq_add_of_le' hlo
  simp only [statusByte, BitVec.getLsbD_append, BitVec.getLsbD_extractLsb']
  simp [show ¬ j + 2 < 1 by omega, show j < 6 by omega, Nat.add_comm]

/-! ## The readback -/

/-- A request that has a readback mutates; the span starts and ends where the readback loop does (R146, R162, R180). -/
theorem span_of_readbackSpan {s : State} {base len : Nat} (h : s.readbackSpan = some (base, len)) :
    s.op.mutates = true ∧ s.verifyBase = base ∧ s.verifyLength = len := by
  unfold State.readbackSpan at h
  cases hop : s.op <;> simp only [hop, Option.some.injEq, Prod.mk.injEq, reduceCtorEq] at h <;> obtain ⟨rfl, rfl⟩ := h <;>
    simp [HostOp.mutates, State.verifyBase, State.verifyLength, State.unitBase, State.unitIndex, HostOp.unitSize, hop]

/-- No span is longer than the array (R162, R180). -/
theorem length_le_of_readbackSpan {s : State} {base len : Nat} (h : s.readbackSpan = some (base, len)) :
    len ≤ capacity := by
  have hchunk := s.chunk.isLt
  unfold State.readbackSpan at h
  simp only [capacity]
  split at h <;> simp only [Option.some.injEq, Prod.mk.injEq, reduceCtorEq] at h <;> omega

/-- A request has no readback exactly if it mutates nothing (R14, R148). -/
theorem readbackSpan_eq_none_iff {s : State} : s.readbackSpan = none ↔ s.op.mutates = false := by
  unfold State.readbackSpan
  cases s.op <;> simp [HostOp.mutates]

theorem verifyLoop_of_lt {s : State} (h : s.vpos.toNat < s.verifyLength) :
    s.verifyLoop = s.issue .sVfy
      (Exchange.readData (wireAddr (s.verifyBase + s.vpos.toNat)) (min 64 (s.verifyLength - s.vpos.toNat))) :=
  if_pos h

theorem verifyLoop_of_le {s : State} (h : s.verifyLength ≤ s.vpos.toNat) : s.verifyLoop = s.afterUnit :=
  if_neg (Nat.not_lt_of_le h)

theorem afterReady_of_readback {s : State} (hm : s.op.mutates = true) (hv : s.params.readbackVerify = true) :
    s.afterReady = { s with vpos := 0 }.verifyLoop := by
  simp [State.afterReady, hm, hv]

/-- Settles O36: the readback loop is entered at the first byte of the span. -/
theorem readyLeadsToReadbackOrNextUnit : Obligations.ReadyLeadsToReadbackOrNextUnit := by
  intro s hphase
  refine ⟨fun hop => ?_, fun hm hv => by simp [State.afterReady, hm, hv], ⟨readbackSpan_eq_none_iff, ?_⟩,
    fun base len hspan hv => ?_⟩
  · have hready : s.afterReady = s.respond 0 [] := by simp [State.afterReady, HostOp.mutates, hop]
    exact hready.trans (deliver_eq_answered (op := .waitIdle) _ (by rw [hphase]; rfl))
  · refine ⟨?_, ?_, ?_, ?_, ?_, ?_⟩ <;> intro hop <;> simp [State.readbackSpan, hop]
  · obtain ⟨hm, rfl, rfl⟩ := span_of_readbackSpan hspan
    rw [afterReady_of_readback hm hv]
    exact ⟨fun hpos => verifyLoop_of_lt (s := { s with vpos := 0 }) hpos,
      fun hzero => verifyLoop_of_le (s := { s with vpos := 0 }) (Nat.le_of_eq hzero)⟩

theorem afterReadback_of_ne {s : State} {rx : List Byte} (h : rx ≠ s.readbackExpected) :
    s.afterReadback rx = s.raise .readbackFail := if_neg h

theorem afterReadback_of_eq {s : State} {rx : List Byte} (h : rx = s.readbackExpected) :
    s.afterReadback rx = { s with vpos := BitVec.ofNat 23 (s.vpos.toNat + s.readbackLength) }.verifyLoop := if_pos h

theorem Chip.readData_chip (x : Addr) (n : Nat) (c : BusChoice) (ch : Chip) : (Chip.readData x n c ch).1 = ch :=
  Chip.command_ignored n c rfl

/-- ReadData gets as many bytes as it asked for (R77, R73, R79). -/
theorem Chip.readData_length (x : Addr) (n : Nat) (c : BusChoice) (ch : Chip) : (Chip.readData x n c ch).2.length = n := by
  unfold Chip.readData
  rcases Chip.command_cases n (fun k => (k, Memory.readRange k.arr x.toNat n)) c ch with h | ⟨-, -, h⟩ | ⟨-, -, h⟩ <;>
    simp [h]

/-- A chip that is neither busy nor powered down sends the bytes of the array (R77). -/
theorem Chip.readData_ready {ch : Chip} (x : Addr) (n : Nat) (c : BusChoice) (hb : ch.busy = false)
    (hp : ch.poweredDown = false) : (Chip.readData x n c ch).2 = Memory.readRange ch.arr x.toNat n := by
  rw [Chip.readData, Chip.command_ready n _ c hb hp]

/-- The bytes of a readback chunk answered Ok are compared, and the chip stays as it is (R77, R146). -/
theorem exec_readback {x : Addr} {n : Nat} {s : State} (hcap : x.toNat + n ≤ capacity) (hs : s.atSite .sVfy = true)
    (hok : s.choice.err = none) :
    exec (.readData x n) s =
      .next ((s.reacted s.chipNow).afterReadback (Chip.readData x n s.choice s.chipNow).2) := by
  have hexec := exec_ok (i := .readData x n) (L := .sVfy) rfl hcap (by simp [Instr.sites]) hs hok
  rwa [Chip.react, Chip.readData_chip] at hexec

/-- Settles O37: one comparison of the whole chunk, then the loop from the bytes counted. -/
theorem readbackComparesWholeChunks : Obligations.ReadbackComparesWholeChunks := by
  intro x n base len s hphase hspan hcap hok hlt k expected
  have hle : len ≤ 4194304 := length_le_of_readbackSpan hspan
  obtain ⟨hmut, rfl, rfl⟩ := span_of_readbackSpan hspan
  have hserves : s.phase.serves s.op = true := by rw [hphase]; exact hmut
  have hexec := exec_readback hcap (atSite_iff.2 ⟨hphase, hmut⟩) hok
  have hexpected : (s.reacted s.chipNow).readbackExpected = expected := rfl
  have hcount : (BitVec.ofNat 23 (s.vpos.toNat + k)).toNat = s.vpos.toNat + k := by
    rw [BitVec.toNat_ofNat, Nat.mod_eq_of_lt (by omega)]
  have hloop (heq : (Chip.readData x n s.choice s.chipNow).2 = expected) : exec (.readData x n) s =
      .next { s.reacted s.chipNow with vpos := BitVec.ofNat 23 (s.vpos.toNat + k) }.verifyLoop := by
    rw [hexec, afterReadback_of_eq (heq.trans hexpected.symm)]
    rfl
  refine ⟨(Chip.readData x n s.choice s.chipNow).2, Chip.readData_length .., Chip.readData_ready _ _ _, fun hne => ?_,
    fun heq => ⟨_, hcount, fun hv => ?_, fun hv => ?_⟩⟩
  · rw [hexec, afterReadback_of_ne (hexpected ▸ hne), raise_eq_answered (op := s.op)]
    · rfl
    · exact hserves
  · rw [hloop heq, verifyLoop_of_lt]
    · rfl
    · exact hv
  · rw [hloop heq, verifyLoop_of_le]
    · rfl
    · exact Nat.le_of_eq hv.symm

/-! ## Every command comes from the gate -/

/-- A response leaves the block at no site (R22, R227). -/
theorem Phase.afterResponse_not_command (L : Phase) : L.afterResponse.isCommand = false := by
  cases L <;> rfl

theorem pageProgramStep_not_command (s : State) : s.pageProgramStep.phase.isCommand = false := by
  unfold State.pageProgramStep
  split
  · exact Phase.afterResponse_not_command _
  · rfl

theorem eraseLoop_not_command (s : State) : s.eraseLoop.phase.isCommand = false := by
  unfold State.eraseLoop
  split
  · rfl
  · exact Phase.afterResponse_not_command _

theorem nextChunk_not_command (s : State) : s.nextChunk.phase.isCommand = false := by
  unfold State.nextChunk
  dsimp only
  split
  · exact Phase.afterResponse_not_command _
  · exact pageProgramStep_not_command _

theorem afterUnit_not_command (s : State) : s.afterUnit.phase.isCommand = false := by
  unfold State.afterUnit
  split
  · exact nextChunk_not_command s
  · split
    · exact eraseLoop_not_command _
    · exact Phase.afterResponse_not_command _

theorem verifyLoop_not_command (s : State) : s.verifyLoop.phase.isCommand = false := by
  unfold State.verifyLoop
  split
  · rfl
  · exact afterUnit_not_command s

theorem afterReadback_not_command (s : State) (rx : List Byte) : (s.afterReadback rx).phase.isCommand = false := by
  unfold State.afterReadback
  split
  · exact verifyLoop_not_command _
  · exact Phase.afterResponse_not_command _

theorem afterReady_not_command (s : State) : s.afterReady.phase.isCommand = false := by
  unfold State.afterReady
  split
  · split
    · exact verifyLoop_not_command _
    · exact afterUnit_not_command s
  · exact Phase.afterResponse_not_command _

theorem afterPoll_not_command (s : State) (rx : List Byte) : (s.afterPoll rx).phase.isCommand = false := by
  unfold State.afterPoll
  dsimp only
  split
  · split
    · split
      · exact Phase.afterResponse_not_command _
      · rfl
    · rfl
  · exact afterReady_not_command _

/-- The sequencer goes on to a command from the gate's two sites alone: after WriteEnable when the gate reads no status, or
after a status byte with WEL = 1 (R143). -/
theorem gate_of_resume_command {L : Phase} {rx : List Byte} {s : State} (hL : L.serves s.op = true)
    (h : (L.resume rx s).phase.isCommand = true) :
    (L = .sWe ∧ s.params.verifyWe = false) ∨ (L = .sWeRs ∧ statusWel (L.resume rx s).sr = true) := by
  have never (hn : (L.resume rx s).phase.isCommand = false) : False := by simp [hn] at h
  cases L with
  | idle | ctlFault => simp [Phase.serves] at hL
  | sWe =>
    cases hv : s.params.verifyWe with
    | false => exact .inl ⟨rfl, rfl⟩
    | true => exact (never (congrArg (·.phase.isCommand) (afterWriteEnable_of_verifyWe hv))).elim
  | sWeRs =>
    have hsr : (s.afterGateStatus rx).sr = rx.getD 1 0 := congrArg Prod.fst (afterGateStatus_pollRegs s rx)
    cases hw : statusWel (rx.getD 1 0) with
    | true => exact .inr ⟨rfl, (congrArg statusWel hsr).trans hw⟩
    | false =>
      exact (never ((congrArg (·.phase.isCommand) (afterGateStatus_of_not_wel hw)).trans
        (Phase.afterResponse_not_command _))).elim
  | sPp | sSe | sBe32 | sBe64 | sCe | sRstEn => exact (never rfl).elim
  | sPoll => exact (never (afterPoll_not_command s rx)).elim
  | sVfy => exact (never (afterReadback_not_command s rx)).elim
  | sRd | sId | sRst | sPd | sRpd => exact (never (Phase.afterResponse_not_command _)).elim

/-- A request accepted starts no command if the way it starts does not. -/
theorem request_not_command {op : HostOp} {a b : Word} {body : State → State} {s t : State}
    (h : s.request op a b body = .next t) (ha : s.phase.accepts = true)
    (hbody : (body (s.latch op a b)).phase.isCommand = false) : t.phase.isCommand = false := by
  rcases request_next.1 h with ⟨-, rfl⟩ | ⟨-, rfl⟩ | ⟨hp, -⟩
  · exact hbody
  · exact Phase.afterResponse_not_command _
  · simp [ha] at hp

/-- A per-unit erase starts with its check or with the gate (R181 to R183). -/
theorem eraseIndexed_not_command (a : Word) (count : Nat) (s : State) :
    (State.eraseIndexed a count s).phase.isCommand = false := by
  unfold State.eraseIndexed
  split
  · exact Phase.afterResponse_not_command _
  · rfl

/-- No host request starts with a program or erase command: each one that sends such starts with the gate (R161, R180 to
R185). -/
theorem exec_host_not_command {i : Instr} {s t : State} (hi : i.hostOp ≠ none) (ha : s.phase.accepts = true)
    (h : exec i s = .next t) : t.phase.isCommand = false := by
  cases i with
  | hostRead a n =>
    unfold exec execHostRead at h
    refine request_not_command h ha ?_
    split
    · exact Phase.afterResponse_not_command _
    · rfl
  | hostWrite a data =>
    obtain ⟨-, h⟩ := refusal_guard_next.1 h
    refine request_not_command h ha ?_
    split
    · exact Phase.afterResponse_not_command _
    · exact pageProgramStep_not_command _
  | hostErase first last =>
    unfold exec execHostErase at h
    refine request_not_command h ha ?_
    split
    · exact Phase.afterResponse_not_command _
    · split
      · exact Phase.afterResponse_not_command _
      · split
        · exact Phase.afterResponse_not_command _
        · exact eraseLoop_not_command _
  | hostEraseSector a b | hostEraseBlock32K a b | hostEraseBlock64K a b =>
    exact request_not_command h ha (eraseIndexed_not_command _ _ _)
  | hostEraseChip a b | hostWaitIdle a b | hostDeviceId a b | hostReset a b | hostPowerDown a b
  | hostReleasePowerDown a b => exact request_not_command h ha rfl
  | hostCapacity a b | hostUnassigned0 a b | hostUnassignedE a b | hostUnassignedF a b =>
    exact request_not_command h ha (Phase.afterResponse_not_command _)
  | _ => exact absurd rfl hi

/-- Settles O52: a block reset, waiting and a request end at no command, and of the exchanges only the gate's go on to
one. -/
theorem gatePrecedesEveryCommand : Obligations.GatePrecedesEveryCommand := by
  intro s t h hcmd
  rcases step_cases h with ⟨ok, -, rfl⟩ | ⟨-, ⟨ha, -, rfl⟩ | ⟨r, rest, i, ha, -, hd, he⟩ | ⟨e, i, -, -, hd, he⟩⟩
  · cases ok <;> cases hcmd
  · exact absurd ha (Bool.eq_false_iff.1 (Phase.not_accepts_of_isCommand hcmd))
  · obtain ⟨-, op, hop⟩ := decodeRequest_wellFormed hd
    simp [exec_host_not_command (by simp [hop]) (s := { s.dropResetInput with offers := rest }) ha he] at hcmd
  · obtain ⟨hserves, rfl⟩ := exec_wire (hostOp_of_decodeExchange hd) he
    rcases exchange_cases (Chip.react i) s.dropResetInput.phase.resume s.dropResetInput with ⟨p, -, hx⟩ | ⟨-, hx⟩ <;>
      rw [hx] at hcmd ⊢
    · exact absurd hcmd (Bool.eq_false_iff.1 (Phase.afterResponse_not_command _))
    · exact gate_of_resume_command (s := s.dropResetInput.reacted _) hserves hcmd

end Sys2Proof.Machine

namespace Sys2Proof.Machine

open Config

/-! ## READ and WRITE -/

/-- Outside CTLFAULT a response leaves the block in IDLE (R22, R222). -/
theorem deliver_eq_answered_of_ne_ctlFault {s : State} (r : Response) (h : s.phase ≠ .ctlFault) :
    s.deliver r = s.answered r := by
  have hidle : s.phase.afterResponse = .idle := by
    cases hL : s.phase with
    | ctlFault => exact absurd hL h
    | _ => rfl
  simp only [State.deliver, State.answered, hidle]

/-- A request offered in IDLE is accepted, and its procedure starts (R21). -/
theorem request_of_idle {s : State} (op : HostOp) (a b : Word) (body : State → State) (h : s.phase = .idle) :
    s.request op a b body = .next (body (s.latch op a b)) := request_next.2 (.inl ⟨h, rfl⟩)

/-- A wire command answered Err at one of its sites fails its request (R80, R221). -/
theorem exec_err {i : Instr} {L : Phase} {s : State} {p : Payload} (hi : i.hostOp = none) (hin : Instr.inArray i)
    (hL : L ∈ Instr.sites i) (hs : s.atSite L = true) (herr : s.choice.err = some p) :
    exec i s = .next (s.failed p) := by
  obtain ⟨t, ht⟩ := (exec_wire_answers hi).2 ⟨hin, L, hL, hs⟩
  obtain ⟨hserves, rfl⟩ := exec_wire hi ht
  rw [ht, exchange_err herr]
  exact congrArg _ (raise_eq_answered _ hserves)

theorem readData_wireAddr (a : Word) (n : Nat) : Exchange.readData (wireAddr a.toNat) n =
    ⟨.wr, [0x03, a.extractLsb' 16 8, a.extractLsb' 8 8, a.extractLsb' 0 8], n⟩ := by
  rw [Exchange.readData, frameAddr, addrBytes_wireAddr]
  rfl

/-- Settles O23: the bounds check decides between the response and the exchange, whose bytes are handed on. -/
theorem readIsOneExchange : Obligations.ReadIsOneExchange := by
  have site {s : State} (hphase : s.phase = .sRd) (hop : s.op = .read) : s.atSite .sRd = true :=
    atSite_iff.2 ⟨hphase, by rw [hop]; rfl⟩
  refine ⟨fun a n s hidle => ?_, fun x n s hphase hop hcap hok => ?_, fun x n s p hphase hop hcap herr => ?_⟩
  · rw [exec, execHostRead, request_of_idle _ _ _ _ hidle]
    split
    next hout =>
      rw [if_neg (Nat.not_le_of_lt hout)]
      exact congrArg _ (deliver_eq_answered_of_ne_ctlFault _ (by simp [hidle]))
    next hin =>
      rw [if_pos (Nat.le_of_not_lt hin), readData_wireAddr]
      rfl
  · refine ⟨_, Chip.readData_length x n s.choice s.chipNow, ?_, Chip.readData_ready x n s.choice⟩
    rw [exec_ok (i := .readData x n) rfl hcap (List.mem_cons_self ..) (site hphase hop) hok, Chip.react,
      Chip.readData_chip]
    exact congrArg _ (deliver_eq_answered (op := .read) _ (by rw [State.reacted_phase, hphase]; rfl))
  · exact exec_err (i := .readData x n) rfl hcap (List.mem_cons_self ..) (site hphase hop) herr

/-- A chunk inside its page passes the page check (R162). -/
theorem pageProgramStep_of_fits {s : State} (h : s.cur.toNat % pageSize + s.chunk.toNat ≤ pageSize) :
    s.pageProgramStep = s.enterGate := if_neg (Nat.not_lt_of_le h)

/-- Settles O24: the first chunk ends with its page at the latest, so it passes the page check. -/
theorem writeStartsTheFirstChunk : Obligations.WriteStartsTheFirstChunk := by
  intro a data s hidle hlen u
  rw [exec, execHostWrite, if_neg (Nat.not_le_of_lt hlen), request_of_idle _ _ _ _ hidle]
  refine ⟨fun hout => ?_, fun hin => ?_⟩
  · rw [if_pos hout]
    exact congrArg _ (deliver_eq_answered_of_ne_ctlFault _ (by simp [hidle]))
  · have hchunk : (BitVec.ofNat 9 (firstChunk a.toNat data.length)).toNat =
        min (256 - a.toNat % 256) data.length := by
      simp only [BitVec.toNat_ofNat, firstChunk, pageSize]
      omega
    refine ⟨_, hchunk, ?_⟩
    rw [if_neg (Nat.not_lt_of_le hin), pageProgramStep_of_fits]
    · rfl
    · simp only [hchunk, pageSize]
      omega

/-- The registers of a WRITE after a chunk: past the bytes done, with the next chunk's length (R161 step 4). -/
def State.advanced (s : State) : State :=
  { s with
    pos := BitVec.ofNat 32 (s.pos.toNat + s.chunk.toNat), cur := BitVec.ofNat 32 (s.cur.toNat + s.chunk.toNat)
    chunk := BitVec.ofNat 9 (laterChunk s.wbuf.length (s.pos.toNat + s.chunk.toNat)) }

theorem afterUnit_of_write {s : State} (h : s.op = .write) : s.afterUnit =
    if laterChunk s.wbuf.length (s.pos.toNat + s.chunk.toNat) = 0 then s.advanced.respond 0 []
    else s.advanced.pageProgramStep := if_pos h

theorem laterChunk_eq_zero_iff {len pos : Nat} : laterChunk len pos = 0 ↔ len ≤ pos := by
  simp only [laterChunk, pageSize]
  omega

/-- While a WRITE runs, the bytes done are counted without overflow and the next chunk starts a page (R161 step 4). -/
theorem advanced_registers {s : State} (ha : s.phase.accepts = false) (ho : s.op = .write) (h : s.WriteRegs) :
    s.advanced.pos.toNat = s.pos.toNat + s.chunk.toNat ∧
      s.advanced.cur.toNat = s.a.toNat + (s.pos.toNat + s.chunk.toNat) ∧
      s.advanced.chunk.toNat = min (s.wbuf.length - (s.pos.toNat + s.chunk.toNat)) 256 ∧
      (s.pos.toNat + s.chunk.toNat < s.wbuf.length → s.advanced.cur.toNat % 256 = 0) := by
  obtain ⟨hcur, hend, hpos, hchunk⟩ := h ha ho
  simp only [State.advanced, BitVec.toNat_ofNat, laterChunk, capacity, pageSize] at *
  omega

/-- Settles O38: a chunk from a page's first byte is at most a page, so it passes the page check. -/
theorem writeGoesOnToTheNextChunk : Obligations.WriteGoesOnToTheNextChunk := by
  intro s ha ho hregs pos
  obtain ⟨hpos, hcur, hchunk, haligned⟩ := advanced_registers ha ho hregs
  rw [afterUnit_of_write ho]
  refine ⟨fun hdone => ⟨s.advanced.pos, s.advanced.cur, hpos, hcur, ?_⟩,
    fun hleft => ⟨s.advanced.pos, s.advanced.cur, s.advanced.chunk, hpos, hcur, haligned hleft, hchunk, ?_⟩⟩
  · have hphase : s.phase ≠ .ctlFault := fun hfault => by simp [hfault, Phase.accepts] at ha
    have hnone := laterChunk_eq_zero_iff.2 hdone
    have hempty : s.advanced.chunk = 0 := congrArg (BitVec.ofNat 9) hnone
    rw [if_pos hnone, ← hempty]
    exact deliver_eq_answered_of_ne_ctlFault _ hphase
  · rw [if_neg (laterChunk_eq_zero_iff.not.2 (Nat.not_le_of_lt hleft)), pageProgramStep_of_fits]
    · rfl
    · rw [hchunk, pageSize, haligned hleft]
      omega

end Sys2Proof.Machine

namespace Sys2Proof.Machine

open Config

/-! ## The erases -/

/-- ERASE's loop outside CTLFAULT: the next sector's gate while the range lasts, else the answer OK (R185). -/
theorem eraseLoop_of_ne_ctlFault {s : State} (h : s.phase ≠ .ctlFault) : s.eraseLoop =
    if s.unit.toNat < s.unitEnd.toNat then s.issue .sWe ⟨.w, [0x06], 0⟩ else s.answered ⟨.ok, 0, [], none⟩ := by
  rw [← deliver_eq_answered_of_ne_ctlFault _ h]
  rfl

/-- An error found while a request offered in IDLE is accepted leaves the block in IDLE (R22, R227). -/
theorem raise_latch_of_idle {s : State} (op : HostOp) (a b : Word) (e : ReqError) (h : s.phase = .idle) :
    (s.latch op a b).raise e = (s.latch op a b).answered ⟨e.result, 0, [], e.carried⟩ :=
  deliver_eq_answered_of_ne_ctlFault _ (by simp [h])

/-- A per-unit erase offered in IDLE: the gate for an index below the unit count, else OutOfBounds (R181 to R183). -/
theorem request_eraseIndexed {s : State} (op : HostOp) (a b : Word) (count : Nat) (h : s.phase = .idle) :
    s.request op a b (State.eraseIndexed a count) = .next
      (if a.toNat < count then (s.latch op a b).issue .sWe ⟨.w, [0x06], 0⟩
      else (s.latch op a b).answered ⟨.outOfBounds, 0, [], none⟩) := by
  rw [request_of_idle _ _ _ _ h, State.eraseIndexed]
  by_cases hlt : a.toNat < count
  · rw [if_neg (Nat.not_le_of_lt hlt), if_pos hlt]
    rfl
  · rw [if_pos (Nat.le_of_not_lt hlt), if_neg hlt]
    exact congrArg _ (raise_latch_of_idle op a b .outOfBounds h)

/-- A sector number that an offset inside the array or at its end has fits the sector registers (R26). -/
theorem toNat_sectorNumber {x : Word} (h : x.toNat ≤ capacity) :
    (BitVec.ofNat 11 (x.toNat / sectorSize)).toNat = x.toNat / sectorSize := by
  simp only [BitVec.toNat_ofNat, capacity, sectorSize] at *
  omega

/-- Of two aligned offsets in order, the sector numbers differ exactly when the offsets do. -/
theorem sectorNumber_lt_iff_ne {first last : Word} (hf : first.toNat % sectorSize = 0) (hl : last.toNat % sectorSize = 0)
    (hle : first.toNat ≤ last.toNat) : first.toNat / sectorSize < last.toNat / sectorSize ↔ first ≠ last := by
  rw [ne_eq, ← BitVec.toNat_inj]
  simp only [sectorSize] at *
  omega

/-- Settles O25: past the checks the loop starts, and the range has a first sector unless it is empty. -/
theorem eraseChecksThenStartsTheFirstSector : Obligations.EraseChecksThenStartsTheFirstSector := by
  intro first last s hidle u
  rw [exec, execHostErase, request_of_idle _ _ _ _ hidle]
  by_cases haligned : first.toNat % sectorSize ≠ 0 ∨ last.toNat % sectorSize ≠ 0
  · rw [if_pos haligned, if_pos haligned]
    exact congrArg _ (raise_latch_of_idle .erase first last .notAligned hidle)
  rw [if_neg haligned, if_neg haligned]
  by_cases horder : last.toNat < first.toNat
  · rw [if_pos horder, if_pos (.inl horder)]
    exact congrArg _ (raise_latch_of_idle .erase first last .outOfBounds hidle)
  rw [if_neg horder]
  by_cases hbound : capacity < last.toNat
  · rw [if_pos hbound, if_pos (.inr hbound)]
    exact congrArg _ (raise_latch_of_idle .erase first last .outOfBounds hidle)
  rw [if_neg hbound, if_neg (not_or_intro horder hbound)]
  simp only [not_or, ne_eq, not_not] at haligned
  obtain ⟨hfirst, hlast⟩ := haligned
  have hle := Nat.le_of_not_lt horder
  have hcap := Nat.le_of_not_lt hbound
  rw [eraseLoop_of_ne_ctlFault (by simp [hidle])]
  simp only [toNat_sectorNumber (hle.trans hcap), toNat_sectorNumber hcap, sectorNumber_lt_iff_ne hfirst hlast hle]
  by_cases hempty : first = last
  · rw [if_neg (not_not_intro hempty), if_pos hempty]
    rfl
  · rw [if_pos hempty, if_neg hempty]
    rfl

/-- Settles O26: the three per-unit erases are one index check, each against its own unit count. -/
theorem unitErasesCheckTheIndex : Obligations.UnitErasesCheckTheIndex := by
  intro a b s hidle
  refine ⟨?_, ?_, ?_, ?_⟩
  · exact (request_eraseIndexed .eraseSector a b nSectors hidle).trans (apply_ite _ _ _ _)
  · exact (request_eraseIndexed .eraseBlock32K a b nBlocks32K hidle).trans (apply_ite _ _ _ _)
  · exact (request_eraseIndexed .eraseBlock64K a b nBlocks64K hidle).trans (apply_ite _ _ _ _)
  · exact request_of_idle .eraseChip a b State.enterGate hidle

theorem afterUnit_of_erase {s : State} (h : s.op = .erase) :
    s.afterUnit = { s with unit := BitVec.ofNat 11 (s.unit.toNat + 1) }.eraseLoop := by
  rw [State.afterUnit, if_neg (by simp [h]), if_pos h]

theorem afterUnit_of_single {s : State} (hw : s.op ≠ .write) (he : s.op ≠ .erase) : s.afterUnit = s.respond 0 [] := by
  rw [State.afterUnit, if_neg hw, if_neg he]

/-- Settles O39: the next sector's number fits its register, so ERASE's loop goes on with it. -/
theorem eraseGoesOnToTheNextSector : Obligations.EraseGoesOnToTheNextSector := by
  intro s ha
  have hphase : s.phase ≠ .ctlFault := fun hfault => by simp [hfault, Phase.accepts] at ha
  refine ⟨fun ho hlt hend => ?_, fun ho => ?_⟩
  · have hunit : (BitVec.ofNat 11 (s.unit.toNat + 1)).toNat = s.unit.toNat + 1 := by
      rw [BitVec.toNat_ofNat]
      omega
    refine ⟨_, hunit, ?_⟩
    rw [afterUnit_of_erase ho, eraseLoop_of_ne_ctlFault (by exact hphase)]
    simp only [hunit]
  · rw [afterUnit_of_single]
    · exact deliver_eq_answered_of_ne_ctlFault _ hphase
    · intro hw
      simp [hw] at ho
    · intro he
      simp [he] at ho

end Sys2Proof.Machine

namespace Sys2Proof.Machine

open Config

/-! ## Identity, reset and power -/

/-- The answer OK to a request offered in IDLE leaves the block in IDLE (R22). -/
theorem respond_latch_of_idle {s : State} (op : HostOp) (a b value : Word) (rdata : List Byte) (h : s.phase = .idle) :
    (s.latch op a b).respond value rdata = (s.latch op a b).answered ⟨.ok, value, rdata, none⟩ :=
  deliver_eq_answered_of_ne_ctlFault _ (by simp [h])

/-- Settles O17: CAPACITY's procedure is the response alone. -/
theorem capacityAnswersTheCapacity : Obligations.CapacityAnswersTheCapacity := by
  intro a b s hidle
  rw [exec, execHostCapacity, request_of_idle _ _ _ _ hidle, respond_latch_of_idle _ _ _ _ _ hidle]
  rfl

/-- An op without a procedure of its own, offered in IDLE, is answered Unsupported (R206, R230). -/
theorem request_unsupported {s : State} (op : HostOp) (a b : Word) (h : s.phase = .idle) :
    s.request op a b (State.raise .unsupported) =
      .next ({ s with op := op, a := a, b := b }.answered ⟨.unsupported, 0, [], none⟩) := by
  rw [request_of_idle _ _ _ _ h, raise_latch_of_idle _ _ _ _ h]
  rfl

/-- Settles O18: the three unassigned ops have one procedure, the error. -/
theorem unassignedOpsAreUnsupported : Obligations.UnassignedOpsAreUnsupported := by
  intro a b s hidle
  exact ⟨request_unsupported .unassigned0 a b hidle, request_unsupported .unassignedE a b hidle,
    request_unsupported .unassignedF a b hidle⟩

/-- Settles O27: WAIT_IDLE's procedure is the poller's start. -/
theorem waitIdleStartsThePoll : Obligations.WaitIdleStartsThePoll := by
  intro a b s hidle
  exact request_of_idle .waitIdle a b State.waitReady hidle

/-- The sequencer is at site L while a request with that site is in progress (R27). -/
theorem atSite_of_serves {s : State} {L : Phase} {op : HostOp} (hphase : s.phase = L) (hop : s.op = op)
    (h : L.serves op = true) : s.atSite L = true := atSite_iff.2 ⟨hphase, hop ▸ h⟩

/-- At a site where the sequencer responds at once, the answer Ok ends the request with OK, and f picks the read data from
the bytes the chip sent (R22, R140). -/
theorem exec_ok_answered {i : Instr} {L : Phase} {s : State} (f : List Byte → List Byte)
    (hresume : L.resume = fun rx => State.respond 0 (f rx)) (hi : i.hostOp = none) (hin : Instr.inArray i)
    (hL : L ∈ Instr.sites i) (hs : s.atSite L = true) (hok : s.choice.err = none) :
    exec i s = .next ((s.reacted (Chip.react i s.choice s.chipNow).1).answered
      ⟨.ok, 0, f (Chip.react i s.choice s.chipNow).2, none⟩) := by
  obtain ⟨hphase, hserves⟩ := atSite_iff.1 hs
  rw [exec_ok hi hin hL hs hok, hresume]
  exact congrArg _ (deliver_eq_answered (op := s.op) _ (by rwa [State.reacted_phase, hphase]))

/-- Settles O19: RESET has two sites; the first goes on to the second, the second responds. -/
theorem resetIsTwoExchanges : Obligations.ResetIsTwoExchanges := by
  have siteEnable {s : State} (hphase : s.phase = .sRstEn) (hop : s.op = .reset) : s.atSite .sRstEn = true :=
    atSite_of_serves hphase hop rfl
  have siteReset {s : State} (hphase : s.phase = .sRst) (hop : s.op = .reset) : s.atSite .sRst = true :=
    atSite_of_serves hphase hop rfl
  refine ⟨fun a b s hidle => request_of_idle .reset a b _ hidle,
    fun s hphase hop hok => ⟨(Chip.enableReset s.choice s.chipNow).1, ?_⟩,
    fun s hphase hop hok => ⟨(Chip.reset s.choice s.chipNow).1, ?_⟩,
    fun s p hop herr => ⟨fun hphase => ⟨s.chip.scramble s.choice, ?_⟩, fun hphase => ⟨s.chip.scramble s.choice, ?_⟩⟩⟩
  · exact exec_ok (i := .enableReset) rfl trivial (List.mem_singleton_self _) (siteEnable hphase hop) hok
  · exact exec_ok_answered (i := .reset) (fun _ => []) rfl rfl trivial (List.mem_singleton_self _) (siteReset hphase hop) hok
  · exact exec_err (i := .enableReset) rfl trivial (List.mem_singleton_self _) (siteEnable hphase hop) herr
  · exact exec_err (i := .reset) rfl trivial (List.mem_singleton_self _) (siteReset hphase hop) herr

/-- A chip that is not busy is powered down after PowerDown, also where it ignores it because it was so before (R79). -/
theorem Chip.powerDown_poweredDown {ch : Chip} (c : BusChoice) (hb : ch.busy = false) :
    (Chip.powerDown c ch).1.poweredDown = true := by
  cases hp : ch.poweredDown with
  | false => rw [Chip.powerDown, Chip.command_ready 0 _ c hb hp]
  | true => exact Chip.command_keeps (P := fun k => k.poweredDown = true) 0 _ c hp rfl

/-- Settles O20: the chip of the next state is the one that has reacted to PowerDown. -/
theorem powerDownIsOneExchange : Obligations.PowerDownIsOneExchange := by
  have site {s : State} (hphase : s.phase = .sPd) (hop : s.op = .powerDown) : s.atSite .sPd = true :=
    atSite_of_serves hphase hop rfl
  refine ⟨fun a b s hidle => request_of_idle .powerDown a b _ hidle,
    fun s hphase hop hok => ⟨(Chip.powerDown s.choice s.chipNow).1, ?_, fun hb => ?_, fun hb => ⟨?_, ?_⟩⟩,
    fun s p hphase hop herr => ?_⟩
  · exact exec_ok_answered (i := .powerDown) (fun _ => []) rfl rfl trivial (List.mem_singleton_self _) (site hphase hop) hok
  · exact busyChipIgnoresCommands .powerDown _ _ hb nofun
  · exact Chip.powerDown_poweredDown _ hb
  · exact (Chip.react_uid .powerDown _ _).trans (Chip.settle_uid _ _)
  · exact exec_err (i := .powerDown) rfl trivial (List.mem_singleton_self _) (site hphase hop) herr

theorem Chip.releasePowerDown_chip (c : BusChoice) (ch : Chip) :
    (Chip.releasePowerDown c ch).1 = if ch.busy then ch else { ch with poweredDown := false } := apply_ite Prod.fst _ _ _

/-- Settles O21: the chip of the next state is the one that has reacted to ReleasePowerDown. -/
theorem releasePowerDownIsOneExchange : Obligations.ReleasePowerDownIsOneExchange := by
  have site {s : State} (hphase : s.phase = .sRpd) (hop : s.op = .releasePowerDown) : s.atSite .sRpd = true :=
    atSite_of_serves hphase hop rfl
  refine ⟨fun a b s hidle => request_of_idle .releasePowerDown a b _ hidle, fun s hphase hop hok => ?_,
    fun s p hphase hop herr => ?_⟩
  · rw [← Chip.releasePowerDown_chip s.choice]
    exact exec_ok_answered (i := .releasePowerDown) (fun _ => []) rfl rfl trivial (List.mem_singleton_self _)
      (site hphase hop) hok
  · exact exec_err (i := .releasePowerDown) rfl trivial (List.mem_singleton_self _) (site hphase hop) herr

theorem Chip.uniqueId_chip (c : BusChoice) (ch : Chip) : (Chip.uniqueId c ch).1 = ch := Chip.command_ignored _ c rfl

/-- UniqueId gets thirteen bytes, whatever the chip is doing (R78, R73, R79). -/
theorem Chip.uniqueId_length (c : BusChoice) (ch : Chip) : (Chip.uniqueId c ch).2.length = idFrameLen := by
  unfold Chip.uniqueId
  rcases Chip.command_cases idFrameLen (fun k => (k, c.received 5 ++ k.uid.toList)) c ch with h | ⟨-, -, h⟩ | ⟨-, -, h⟩ <;>
    simp [h, idFrameLen]

/-- A chip that is neither busy nor powered down sends its identifier after the first five bytes (R78). -/
theorem Chip.uniqueId_ready {ch : Chip} (c : BusChoice) (hb : ch.busy = false) (hp : ch.poweredDown = false) :
    ((Chip.uniqueId c ch).2.drop 5).take 8 = ch.uid.toList := by
  rw [Chip.uniqueId, Chip.command_ready _ _ c hb hp, List.drop_left' (by simp), List.take_of_length_le (by simp)]

/-- Settles O22: the response holds the last eight bytes, and the chip's reaction leaves the chip as it is. -/
theorem deviceIdReturnsTheLastEightBytes : Obligations.DeviceIdReturnsTheLastEightBytes := by
  have site {s : State} (hphase : s.phase = .sId) (hop : s.op = .deviceId) : s.atSite .sId = true :=
    atSite_of_serves hphase hop rfl
  refine ⟨fun a b s hidle => request_of_idle .deviceId a b _ hidle,
    fun s hphase hop hok => ⟨_, Chip.uniqueId_length s.choice s.chipNow, ?_, fun hb hp => ?_⟩,
    fun s p hphase hop herr => ?_⟩
  · have hexec := exec_ok_answered (i := .uniqueId) (fun rx => (rx.drop 5).take 8) rfl rfl trivial
      (List.mem_singleton_self _) (site hphase hop) hok
    rwa [Chip.react, Chip.uniqueId_chip] at hexec
  · exact (Chip.uniqueId_ready s.choice hb hp).trans (congrArg _ (Chip.settle_uid _ _))
  · exact exec_err (i := .uniqueId) rfl trivial (List.mem_singleton_self _) (site hphase hop) herr

end Sys2Proof.Machine

namespace Sys2Proof.Machine

/-! ## Request errors -/

/-- After a response the block is in IDLE, unless it was in CTLFAULT (R222, R227). -/
theorem Phase.afterResponse_eq (L : Phase) : L.afterResponse = if L = .ctlFault then .ctlFault else .idle := by
  cases L <;> rfl

/-- Settles O12: every register but those of the response is the one before, and the payload is what the error carries. -/
theorem raiseDeliversTheError : Obligations.RaiseDeliversTheError := by
  intro e s t p
  have hp : p = e.carried := by cases e <;> rfl
  rw [hp]
  exact ⟨rfl, rfl, rfl, rfl, rfl, Phase.afterResponse_eq s.phase, rfl, rfl, rfl, rfl, rfl, rfl, rfl, rfl, rfl, rfl, rfl, rfl,
    rfl, rfl⟩

/-- Settles O13: the errors one by one, and the bound by cases on the code. -/
theorem resultCodesAreNumbered : Obligations.ResultCodesAreNumbered := by
  refine fun p => ⟨rfl, rfl, rfl, rfl, rfl, rfl, rfl, rfl, rfl, fun r => ?_⟩
  cases r <;> decide

/-- A host request in CTLFAULT is latched and answered ControlLineError, whatever its op (R222). -/
theorem exec_host_of_ctlFault {i : Instr} {op : HostOp} {s : State} (hi : i.hostOp = some op) (hw : i.WellFormed)
    (hfault : s.phase = .ctlFault) : ∃ a b, exec i s = .next ((s.latch op a b).raise .controlLineError) := by
  obtain ⟨body, -, he⟩ := exec_host hi hw s
  exact ⟨_, _, he.trans (request_next.2 (.inr (.inl ⟨hfault, rfl⟩)))⟩

/-- An error response leaves the phase CTLFAULT (R227). -/
theorem raise_phase_of_ctlFault {s : State} (e : ReqError) (h : s.phase = .ctlFault) : (s.raise e).phase = .ctlFault := by
  rw [State.raise_phase, h, Phase.afterResponse]

/-- Settles O14: in CTLFAULT a step is a block reset, waiting, or the error response to a request. -/
theorem ctlFaultAnswersEveryRequest : Obligations.CtlFaultAnswersEveryRequest := by
  refine ⟨fun i op s hi hw hfault => ?_, fun s ok => rfl, fun s t hfault h => ?_⟩
  · obtain ⟨a, b, he⟩ := exec_host_of_ctlFault hi hw hfault
    exact ⟨_, he, raise_phase_of_ctlFault _ hfault, rfl, rfl, rfl, rfl⟩
  · rcases step_cases h with ⟨ok, hr, rfl⟩ | ⟨-, ⟨-, -, rfl⟩ | ⟨r, rest, i, -, -, hd, he⟩ | ⟨e, i, ha, -⟩⟩
    · cases ok with
      | true => exact .inr hr
      | false => exact .inl rfl
    · exact .inl hfault
    · obtain ⟨hw, op, hi⟩ := decodeRequest_wellFormed hd
      obtain ⟨a, b, hfail⟩ := exec_host_of_ctlFault (s := { s.dropResetInput with offers := rest }) hi hw hfault
      obtain rfl := Host.Outcome.next.inj (he.symm.trans hfail)
      exact .inl (raise_phase_of_ctlFault _ hfault)
    · simp [hfault, Phase.accepts] at ha

/-- Only a wire command has a site (R27). -/
theorem hostOp_of_mem_sites {i : Instr} {L : Phase} (h : L ∈ Instr.sites i) : i.hostOp = none := by
  cases i <;> simp_all [Instr.sites, Instr.hostOp]

/-- Settles O16: an outstanding command is at one of its sites with its operands in the array, where Err fails the
request. -/
theorem transportErrorEndsTheRequest : Obligations.TransportErrorEndsTheRequest := by
  intro i s p hout herr
  obtain ⟨hw, L, hL, hs⟩ := outstanding_iff.1 hout
  exact ⟨s.chip.scramble s.choice, exec_err (hostOp_of_mem_sites hL) (inArray_of_wellFormed hw) hL hs herr⟩

/-! ## Where Timeout comes from -/

/-- From s to t no Timeout was delivered as the next response (R229). -/
def State.NoTimeout (s t : State) : Prop := t.responses ≠ s.responses ++ [⟨.timeout, 0, [], none⟩]

theorem noTimeout_of_responses_eq {s t : State} (h : t.responses = s.responses) : s.NoTimeout t := by
  simp [State.NoTimeout, h]

theorem noTimeout_issue (s : State) (L : Phase) (e : Exchange) : s.NoTimeout (s.issue L e) := noTimeout_of_responses_eq rfl

theorem noTimeout_respond (s : State) (v : Word) (d : List Byte) : s.NoTimeout (s.respond v d) := by
  simp [State.NoTimeout]

theorem noTimeout_raise {s : State} {e : ReqError} (h : e.result ≠ .timeout) : s.NoTimeout (s.raise e) := by
  simp [State.NoTimeout, h]

theorem noTimeout_enterCommand (s : State) : s.NoTimeout s.enterCommand := by
  unfold State.enterCommand
  split
  · exact noTimeout_issue s _ _
  · exact noTimeout_of_responses_eq rfl

theorem noTimeout_afterWriteEnable (s : State) : s.NoTimeout s.afterWriteEnable := by
  unfold State.afterWriteEnable
  split
  · exact noTimeout_issue s _ _
  · exact noTimeout_enterCommand s

theorem noTimeout_afterGateStatus (s : State) (rx : List Byte) : s.NoTimeout (s.afterGateStatus rx) := by
  cases hw : statusWel (rx.getD 1 0) with
  | true => exact afterGateStatus_of_wel hw ▸ noTimeout_enterCommand (s.readStatus rx)
  | false => exact afterGateStatus_of_not_wel hw ▸ noTimeout_raise (s := s.readStatus rx) nofun

theorem noTimeout_waitReady (s : State) : s.NoTimeout s.waitReady := noTimeout_issue { s with pollcnt := 0 } _ _

theorem noTimeout_pageProgramStep (s : State) : s.NoTimeout s.pageProgramStep := by
  unfold State.pageProgramStep
  split
  · exact noTimeout_raise nofun
  · exact noTimeout_issue s _ _

theorem noTimeout_eraseLoop (s : State) : s.NoTimeout s.eraseLoop := by
  unfold State.eraseLoop
  split
  · exact noTimeout_issue s _ _
  · exact noTimeout_respond s _ _

theorem noTimeout_nextChunk (s : State) : s.NoTimeout s.nextChunk := by
  unfold State.nextChunk
  dsimp only
  split
  · exact noTimeout_respond { s with pos := _, cur := _, chunk := _ } _ _
  · exact noTimeout_pageProgramStep { s with pos := _, cur := _, chunk := _ }

theorem noTimeout_afterUnit (s : State) : s.NoTimeout s.afterUnit := by
  unfold State.afterUnit
  split
  · exact noTimeout_nextChunk s
  · split
    · exact noTimeout_eraseLoop { s with unit := _ }
    · exact noTimeout_respond s _ _

theorem noTimeout_verifyLoop (s : State) : s.NoTimeout s.verifyLoop := by
  unfold State.verifyLoop
  split
  · exact noTimeout_issue s _ _
  · exact noTimeout_afterUnit s

theorem noTimeout_afterReadback (s : State) (rx : List Byte) : s.NoTimeout (s.afterReadback rx) := by
  unfold State.afterReadback
  split
  · exact noTimeout_verifyLoop { s with vpos := _ }
  · exact noTimeout_raise nofun

theorem noTimeout_afterReady (s : State) : s.NoTimeout s.afterReady := by
  unfold State.afterReady
  split
  · split
    · exact noTimeout_verifyLoop { s with vpos := 0 }
    · exact noTimeout_afterUnit s
  · exact noTimeout_respond s _ _

/-- What a poll that ends with Timeout leaves: the site, a status byte with BUSY = 1, and a budget used up by its status
reads (R144, R229). -/
def State.TimedOut (s t : State) : Prop :=
  s.phase = .sPoll ∧ t.sr.getLsbD 0 = true ∧ t.pollcnt = s.pollcnt + 1 ∧
    ∃ l, s.params.pollLimit.limit s.op.pollKind = some l ∧ l ≤ t.pollcnt

/-- A poll delivers Timeout only on a status byte with BUSY = 1 that uses up a budget (R144, R229). -/
theorem timedOut_afterPoll {s : State} {rx : List Byte} (hp : s.phase = .sPoll) (h : ¬ s.NoTimeout (s.afterPoll rx)) :
    s.TimedOut (s.afterPoll rx) := by
  have hregs := afterPoll_pollRegs s rx
  simp only [State.pollRegs, Prod.mk.injEq] at hregs
  obtain ⟨hsr, hcount, -⟩ := hregs
  cases hb : statusBusy (rx.getD 1 0) with
  | false => exact absurd (afterPoll_of_not_busy hb ▸ noTimeout_afterReady (s.polled rx)) h
  | true =>
    refine ⟨hp, hsr ▸ hb, hcount, ?_⟩
    by_contra hbudget
    have hleft : ∀ l, s.params.pollLimit.limit s.op.pollKind = some l → s.pollcnt + 1 < l :=
      fun l hl => Nat.lt_of_not_le fun hle => hbudget ⟨l, hl, hcount ▸ hle⟩
    exact absurd (afterPoll_of_left hb hleft ▸ noTimeout_issue (s.polled rx) _ _) h

/-- At every other site the sequencer goes on without a Timeout (R229). -/
theorem noTimeout_resume {L : Phase} (s : State) (rx : List Byte) (hL : L ≠ .sPoll) : s.NoTimeout (L.resume rx s) := by
  cases L with
  | sPoll => exact absurd rfl hL
  | idle | ctlFault => exact noTimeout_of_responses_eq rfl
  | sWe => exact noTimeout_afterWriteEnable s
  | sWeRs => exact noTimeout_afterGateStatus s rx
  | sPp | sSe | sBe32 | sBe64 | sCe => exact noTimeout_waitReady s
  | sRstEn => exact noTimeout_issue s _ _
  | sVfy => exact noTimeout_afterReadback s rx
  | sRd | sId | sRst | sPd | sRpd => exact noTimeout_respond s _ _

/-- The answer to an exchange delivers Timeout only where a poll does (R229). -/
theorem timedOut_exchange {s : State} {act : BusChoice → Chip → Chip × List Byte}
    (h : ¬ s.NoTimeout (s.exchange act s.phase.resume)) : s.TimedOut (s.exchange act s.phase.resume) := by
  rcases exchange_cases act s.phase.resume s with ⟨p, -, hx⟩ | ⟨-, hx⟩ <;> rw [hx] at h ⊢
  · exact absurd (noTimeout_raise (s := s.reacted _) (e := .transportError p) nofun) h
  · by_cases hp : s.phase = .sPoll
    · rw [hp] at h ⊢
      exact timedOut_afterPoll (s := s.reacted _) hp h
    · exact absurd (noTimeout_resume (s.reacted _) _ hp) h

/-- A request is answered Timeout at its acceptance only if the way it starts does so. -/
theorem noTimeout_request {op : HostOp} {a b : Word} {body : State → State} {s t : State}
    (h : s.request op a b body = .next t) (hbody : (s.latch op a b).NoTimeout (body (s.latch op a b))) :
    s.NoTimeout t := by
  rcases request_next.1 h with ⟨-, rfl⟩ | ⟨-, rfl⟩ | ⟨-, rfl⟩
  · exact hbody
  · exact noTimeout_raise (s := s.latch op a b) nofun
  · exact noTimeout_of_responses_eq rfl

theorem noTimeout_eraseIndexed (a : Word) (count : Nat) (s : State) : s.NoTimeout (State.eraseIndexed a count s) := by
  unfold State.eraseIndexed
  split
  · exact noTimeout_raise nofun
  · exact noTimeout_issue s _ _

/-- No host request is answered Timeout at its acceptance: it has polled nothing yet (R229). -/
theorem noTimeout_exec_host {i : Instr} {s t : State} (hi : i.hostOp ≠ none) (h : exec i s = .next t) :
    s.NoTimeout t := by
  cases i with
  | hostRead a n =>
    unfold exec execHostRead at h
    refine noTimeout_request h ?_
    split
    · exact noTimeout_raise nofun
    · exact noTimeout_issue _ _ _
  | hostWrite a data =>
    obtain ⟨-, h⟩ := refusal_guard_next.1 h
    refine noTimeout_request h ?_
    split
    · exact noTimeout_raise nofun
    · exact noTimeout_pageProgramStep { s.latch _ _ _ with wbuf := _, cur := _, pos := _, chunk := _ }
  | hostErase first last =>
    unfold exec execHostErase at h
    refine noTimeout_request h ?_
    split
    · exact noTimeout_raise nofun
    · split
      · exact noTimeout_raise nofun
      · split
        · exact noTimeout_raise nofun
        · exact noTimeout_eraseLoop { s.latch _ _ _ with unit := _, unitEnd := _ }
  | hostEraseSector a b | hostEraseBlock32K a b | hostEraseBlock64K a b =>
    exact noTimeout_request h (noTimeout_eraseIndexed _ _ _)
  | hostWaitIdle a b => exact noTimeout_request h (noTimeout_waitReady _)
  | hostEraseChip a b | hostDeviceId a b | hostReset a b | hostPowerDown a b | hostReleasePowerDown a b =>
    exact noTimeout_request h (noTimeout_issue _ _ _)
  | hostCapacity a b => exact noTimeout_request h (noTimeout_respond _ _ _)
  | hostUnassigned0 a b | hostUnassignedE a b | hostUnassignedF a b =>
    exact noTimeout_request h (noTimeout_raise nofun)
  | _ => exact absurd rfl hi

/-- Settles O55: a block reset, waiting and a request deliver no Timeout, and of the exchanges only the poll's does. -/
theorem timeoutNeedsABudget : Obligations.TimeoutNeedsABudget := by
  intro s t h htimeout
  have hnot : ¬ s.NoTimeout t := fun hn => hn htimeout
  rcases step_cases h with ⟨ok, -, rfl⟩ | ⟨-, ⟨-, -, rfl⟩ | ⟨r, rest, i, -, -, hd, he⟩ | ⟨e, i, -, -, hd, he⟩⟩
  · exact absurd (noTimeout_of_responses_eq (blockReset_ports s.dropResetInput ok).2.1) hnot
  · exact absurd (noTimeout_of_responses_eq rfl) hnot
  · obtain ⟨-, op, hop⟩ := decodeRequest_wellFormed hd
    exact absurd (noTimeout_exec_host (s := { s.dropResetInput with offers := rest }) (by simp [hop]) he) hnot
  · obtain ⟨-, rfl⟩ := exec_wire (hostOp_of_decodeExchange hd) he
    exact timedOut_exchange (s := s.dropResetInput) hnot

end Sys2Proof.Machine

namespace Sys2Proof.Machine

/-! ## Waiting, and the request a block reset drops -/

/-- Settles O7: the fetch finds no offer, so the step only takes the reset input. -/
theorem stepWaitsForARequest : Obligations.StepWaitsForARequest := by
  intro s hn ha ho
  rw [step_of_noReset hn, fetch_no_offer (s := s.dropResetInput) ha ho]
  rfl

/-- A block reset keeps the host's offers, and the response of the request it drops is awaited still (R262). -/
theorem blockReset_host (s : State) (ok : Bool) :
    (s.blockReset ok).offers = s.offers ∧ (s.blockReset ok).awaiting = s.awaiting := by
  have h : s.abandonExchange.offers = s.offers ∧ s.abandonExchange.awaiting = s.awaiting := by
    rcases abandonExchange_cases s with ⟨-, ha⟩ | ⟨ch, ha, -⟩ <;> rw [ha] <;> exact ⟨rfl, rfl⟩
  exact h

/-- While a response is awaited the run has not ended (R262). -/
theorem runEnded_of_awaiting {s : State} (h : s.awaiting = true) : s.runEnded = false := by
  simp [State.runEnded, h]

/-- The chip never saw the exchange outstanding at a block reset, or reacted to its instruction (R62, R250). -/
theorem blockReset_chip_of_outstanding {s : State} {e : Exchange} {i : Instr} (ok : Bool) (hb : s.bus = some e)
    (hd : decodeExchange e = .ok i) :
    (s.blockReset ok).chip = s.chip ∨ (s.blockReset ok).chip = (Chip.react i s.choice s.chipNow).1 := by
  show s.abandonExchange.chip = s.chip ∨ s.abandonExchange.chip = (Chip.react i s.choice s.chipNow).1
  cases hi : s.choice.ignored with
  | true => exact .inl (by simp [State.abandonExchange, hb, hi, State.consume])
  | false => exact .inr (by simp [State.abandonExchange, hb, hi, hd, State.chipNow])

/-- Settles O11: the step is the block reset, which touches neither the host's side of the port nor, but for the exchange
outstanding, the chip. -/
theorem blockResetDropsTheRequest : Obligations.BlockResetDropsTheRequest := by
  intro s ok
  obtain ⟨hparams, hresponses, htrace⟩ := blockReset_ports s ok
  obtain ⟨hoffers, hawaiting⟩ := blockReset_host s ok
  exact ⟨s.blockReset ok, step_of_reset rfl, hresponses, htrace, hawaiting,
    fun h => runEnded_of_awaiting (hawaiting.trans h), hoffers, hparams, blockReset_chip ok,
    fun _ _ => blockReset_chip_of_outstanding ok⟩

end Sys2Proof.Machine
